-- ==== Sys2Proof/Word.lean ====
section
/-! DEFINITION. The words of the machine: 8-bit bytes and 16-bit addresses (`00_scope.md` R12, R13). -/

namespace Sys2Proof

/-- An 8-bit byte, bit 0 the least significant (R13). -/
abbrev Byte := BitVec 8

/-- A 16-bit address, bit 0 the least significant (R12, R13). -/
abbrev Addr := BitVec 16

end Sys2Proof
end

