-- ==== Sys2Proof/Config.lean ====
section
/-! DEFINITION. What is fixed for the machine: the 56 mnemonics, the 13 addressing modes, the bits of the status
register, the shape of a table entry, the four decided parameters and the fixed addresses
(`00_scope.md` R12, `10_state.md` R27, `30_encoding.md` R81, R86). The spec leaves no value open, so there is no free value. -/

namespace Sys2Proof

/-- The 56 mnemonics (`30_encoding.md` R89). -/
inductive Mnemonic
  | ADC | AND | ASL | BCC | BCS | BEQ | BIT | BMI
  | BNE | BPL | BRK | BVC | BVS | CLC | CLD | CLI
  | CLV | CMP | CPX | CPY | DEC | DEX | DEY | EOR
  | INC | INX | INY | JMP | JSR | LDA | LDX | LDY
  | LSR | NOP | ORA | PHA | PHP | PLA | PLP | ROL
  | ROR | RTI | RTS | SBC | SEC | SED | SEI | STA
  | STX | STY | TAX | TAY | TSX | TXA | TXS | TYA
deriving DecidableEq, Repr

/-- The thirteen addressing modes, by their format ids (`30_encoding.md` R81). -/
inductive Mode
  | IMP  -- implied
  | ACC  -- accumulator
  | IMM  -- immediate
  | ZP  -- `zero_page`
  | ZPX  -- `zero_page_x`
  | ZPY  -- `zero_page_y`
  | REL  -- `relative`
  | ABS  -- `absolute`
  | ABX  -- `absolute_x`
  | ABY  -- `absolute_y`
  | IND  -- `indirect`
  | IZX  -- `x_indirect`
  | IZY  -- `indirect_y`
deriving DecidableEq, Repr

/-- The eight bits of `stat` (`10_state.md` R27). -/
inductive Flag
  | C  -- Carry, bit 0
  | Z  -- Zero, bit 1
  | I  -- Interrupt-disable, bit 2
  | D  -- Decimal, bit 3
  | B  -- Break, bit 4
  | U  -- the unused bit 5, plain storage (R30). DEDUCED (log entry 15)
  | V  -- Overflow, bit 6
  | N  -- Negative, bit 7
deriving DecidableEq, Repr

/-- The length of an instruction of each format (`30_encoding.md` R82). -/
def Mode.length : Mode → Nat
  | .IMP | .ACC => 1
  | .IMM | .ZP | .ZPX | .ZPY | .REL | .IZX | .IZY => 2
  | .ABS | .ABX | .ABY | .IND => 3

/-- A table entry (`30_encoding.md` R86): what the decoder answers for a defined opcode. The handler reference is
`handlerVariant` of Decode.lean. `cycles` is inert metadata (R88) and `flags` is descriptive metadata (R87). DEDUCED (log
entry 10; safe). -/
structure TableEntry where
  mnemonic : Mnemonic
  mode : Mode
  length : Nat
  cycles : Nat
  flags : List Flag
deriving DecidableEq, Repr

/-- The four decided parameters of `00_scope.md` R12, each "may be taken as a Boolean parameter". -/
structure Params where
  /-- R108: take the high byte of a JMP indirect target from the pointer's own page. -/
  jmpIndirectPageWrapBug : Bool
  /-- R203: PLA and PLP write 0x00 to the byte they pulled. -/
  pullClearsStackByte : Bool
  /-- R240: BRK sets `stat.I`. -/
  brkSetsI : Bool
  /-- R204, R242: PLP and RTI load bits 4 and 5 too. -/
  pullStatusWholeByte : Bool
deriving DecidableEq, Repr

/-- The parameters at the values of `00_scope.md` R12. DESIGN CHOICE of the spec (log entry 7; unsafe if the engine takes
another). -/
def Config.params : Params where
  jmpIndirectPageWrapBug := false
  pullClearsStackByte := true
  brkSetsI := false
  pullStatusWholeByte := true

/-- `MEM_SIZE`, the number of bytes of memory (R12). -/
def Config.memSize : Nat := 65536

/-- Base of the stack page (R12, R23). -/
def Config.stackBase : Addr := 0x0100

/-- The reset vector's low byte; its high byte is at the next address (R12). -/
def Config.resetVector : Addr := 0xFFFC

/-- The BRK vector's low byte; its high byte is at the next address (R12). -/
def Config.breakVector : Addr := 0xFFFE

end Sys2Proof
end

