-- ==== Sys2Proof/Syntax.lean ====
section
/-! DEFINITION. The syntax: one constructor per row of the opcode table (`30_encoding.md` R93), named by mnemonic and
format, with the operand bytes of the format (R81): `v` an immediate value, `z` a zero-page byte, `d` a branch offset
byte, `a` the 16-bit operand `b2:b1`. -/

namespace Sys2Proof

/-- An instruction: an opcode row of R93 with its operand. -/
inductive Instr
  | brk
  | oraIzx (z : Byte)
  | oraZp (z : Byte)
  | aslZp (z : Byte)
  | php
  | oraImm (v : Byte)
  | aslAcc
  | oraAbs (a : Addr)
  | aslAbs (a : Addr)
  | bpl (d : Byte)
  | oraIzy (z : Byte)
  | oraZpx (z : Byte)
  | aslZpx (z : Byte)
  | clc
  | oraAby (a : Addr)
  | oraAbx (a : Addr)
  | aslAbx (a : Addr)
  | jsr (a : Addr)
  | andIzx (z : Byte)
  | bitZp (z : Byte)
  | andZp (z : Byte)
  | rolZp (z : Byte)
  | plp
  | andImm (v : Byte)
  | rolAcc
  | bitAbs (a : Addr)
  | andAbs (a : Addr)
  | rolAbs (a : Addr)
  | bmi (d : Byte)
  | andIzy (z : Byte)
  | andZpx (z : Byte)
  | rolZpx (z : Byte)
  | sec
  | andAby (a : Addr)
  | andAbx (a : Addr)
  | rolAbx (a : Addr)
  | rti
  | eorIzx (z : Byte)
  | eorZp (z : Byte)
  | lsrZp (z : Byte)
  | pha
  | eorImm (v : Byte)
  | lsrAcc
  | jmpAbs (a : Addr)
  | eorAbs (a : Addr)
  | lsrAbs (a : Addr)
  | bvc (d : Byte)
  | eorIzy (z : Byte)
  | eorZpx (z : Byte)
  | lsrZpx (z : Byte)
  | cli
  | eorAby (a : Addr)
  | eorAbx (a : Addr)
  | lsrAbx (a : Addr)
  | rts
  | adcIzx (z : Byte)
  | adcZp (z : Byte)
  | rorZp (z : Byte)
  | pla
  | adcImm (v : Byte)
  | rorAcc
  | jmpInd (a : Addr)
  | adcAbs (a : Addr)
  | rorAbs (a : Addr)
  | bvs (d : Byte)
  | adcIzy (z : Byte)
  | adcZpx (z : Byte)
  | rorZpx (z : Byte)
  | sei
  | adcAby (a : Addr)
  | adcAbx (a : Addr)
  | rorAbx (a : Addr)
  | staIzx (z : Byte)
  | styZp (z : Byte)
  | staZp (z : Byte)
  | stxZp (z : Byte)
  | dey
  | txa
  | styAbs (a : Addr)
  | staAbs (a : Addr)
  | stxAbs (a : Addr)
  | bcc (d : Byte)
  | staIzy (z : Byte)
  | styZpx (z : Byte)
  | staZpx (z : Byte)
  | stxZpy (z : Byte)
  | tya
  | staAby (a : Addr)
  | txs
  | staAbx (a : Addr)
  | ldyImm (v : Byte)
  | ldaIzx (z : Byte)
  | ldxImm (v : Byte)
  | ldyZp (z : Byte)
  | ldaZp (z : Byte)
  | ldxZp (z : Byte)
  | tay
  | ldaImm (v : Byte)
  | tax
  | ldyAbs (a : Addr)
  | ldaAbs (a : Addr)
  | ldxAbs (a : Addr)
  | bcs (d : Byte)
  | ldaIzy (z : Byte)
  | ldyZpx (z : Byte)
  | ldaZpx (z : Byte)
  | ldxZpy (z : Byte)
  | clv
  | ldaAby (a : Addr)
  | tsx
  | ldyAbx (a : Addr)
  | ldaAbx (a : Addr)
  | ldxAby (a : Addr)
  | cpyImm (v : Byte)
  | cmpIzx (z : Byte)
  | cpyZp (z : Byte)
  | cmpZp (z : Byte)
  | decZp (z : Byte)
  | iny
  | cmpImm (v : Byte)
  | dex
  | cpyAbs (a : Addr)
  | cmpAbs (a : Addr)
  | decAbs (a : Addr)
  | bne (d : Byte)
  | cmpIzy (z : Byte)
  | cmpZpx (z : Byte)
  | decZpx (z : Byte)
  | cld
  | cmpAby (a : Addr)
  | cmpAbx (a : Addr)
  | decAbx (a : Addr)
  | cpxImm (v : Byte)
  | sbcIzx (z : Byte)
  | cpxZp (z : Byte)
  | sbcZp (z : Byte)
  | incZp (z : Byte)
  | inx
  | sbcImm (v : Byte)
  | nop
  | cpxAbs (a : Addr)
  | sbcAbs (a : Addr)
  | incAbs (a : Addr)
  | beq (d : Byte)
  | sbcIzy (z : Byte)
  | sbcZpx (z : Byte)
  | incZpx (z : Byte)
  | sed
  | sbcAby (a : Addr)
  | sbcAbx (a : Addr)
  | incAbx (a : Addr)
deriving DecidableEq, Repr

/-- The mnemonic of an instruction (R93). -/
def Instr.mnemonic : Instr → Mnemonic
  | .adcIzx _ | .adcZp _ | .adcImm _ | .adcAbs _ | .adcIzy _ | .adcZpx _ | .adcAby _ | .adcAbx _ => .ADC
  | .andIzx _ | .andZp _ | .andImm _ | .andAbs _ | .andIzy _ | .andZpx _ | .andAby _ | .andAbx _ => .AND
  | .aslZp _ | .aslAcc | .aslAbs _ | .aslZpx _ | .aslAbx _ => .ASL
  | .bcc _ => .BCC
  | .bcs _ => .BCS
  | .beq _ => .BEQ
  | .bitZp _ | .bitAbs _ => .BIT
  | .bmi _ => .BMI
  | .bne _ => .BNE
  | .bpl _ => .BPL
  | .brk => .BRK
  | .bvc _ => .BVC
  | .bvs _ => .BVS
  | .clc => .CLC
  | .cld => .CLD
  | .cli => .CLI
  | .clv => .CLV
  | .cmpIzx _ | .cmpZp _ | .cmpImm _ | .cmpAbs _ | .cmpIzy _ | .cmpZpx _ | .cmpAby _ | .cmpAbx _ => .CMP
  | .cpxImm _ | .cpxZp _ | .cpxAbs _ => .CPX
  | .cpyImm _ | .cpyZp _ | .cpyAbs _ => .CPY
  | .decZp _ | .decAbs _ | .decZpx _ | .decAbx _ => .DEC
  | .dex => .DEX
  | .dey => .DEY
  | .eorIzx _ | .eorZp _ | .eorImm _ | .eorAbs _ | .eorIzy _ | .eorZpx _ | .eorAby _ | .eorAbx _ => .EOR
  | .incZp _ | .incAbs _ | .incZpx _ | .incAbx _ => .INC
  | .inx => .INX
  | .iny => .INY
  | .jmpAbs _ | .jmpInd _ => .JMP
  | .jsr _ => .JSR
  | .ldaIzx _ | .ldaZp _ | .ldaImm _ | .ldaAbs _ | .ldaIzy _ | .ldaZpx _ | .ldaAby _ | .ldaAbx _ => .LDA
  | .ldxImm _ | .ldxZp _ | .ldxAbs _ | .ldxZpy _ | .ldxAby _ => .LDX
  | .ldyImm _ | .ldyZp _ | .ldyAbs _ | .ldyZpx _ | .ldyAbx _ => .LDY
  | .lsrZp _ | .lsrAcc | .lsrAbs _ | .lsrZpx _ | .lsrAbx _ => .LSR
  | .nop => .NOP
  | .oraIzx _ | .oraZp _ | .oraImm _ | .oraAbs _ | .oraIzy _ | .oraZpx _ | .oraAby _ | .oraAbx _ => .ORA
  | .pha => .PHA
  | .php => .PHP
  | .pla => .PLA
  | .plp => .PLP
  | .rolZp _ | .rolAcc | .rolAbs _ | .rolZpx _ | .rolAbx _ => .ROL
  | .rorZp _ | .rorAcc | .rorAbs _ | .rorZpx _ | .rorAbx _ => .ROR
  | .rti => .RTI
  | .rts => .RTS
  | .sbcIzx _ | .sbcZp _ | .sbcImm _ | .sbcAbs _ | .sbcIzy _ | .sbcZpx _ | .sbcAby _ | .sbcAbx _ => .SBC
  | .sec => .SEC
  | .sed => .SED
  | .sei => .SEI
  | .staIzx _ | .staZp _ | .staAbs _ | .staIzy _ | .staZpx _ | .staAby _ | .staAbx _ => .STA
  | .stxZp _ | .stxAbs _ | .stxZpy _ => .STX
  | .styZp _ | .styAbs _ | .styZpx _ => .STY
  | .tax => .TAX
  | .tay => .TAY
  | .tsx => .TSX
  | .txa => .TXA
  | .txs => .TXS
  | .tya => .TYA

/-- The addressing mode of an instruction (R93). -/
def Instr.mode : Instr → Mode
  | .brk | .php | .clc | .plp | .sec | .rti | .pha | .cli
  | .rts | .pla | .sei | .dey | .txa | .tya | .txs | .tay
  | .tax | .clv | .tsx | .iny | .dex | .cld | .inx | .nop
  | .sed => .IMP
  | .aslAcc | .rolAcc | .lsrAcc | .rorAcc => .ACC
  | .oraImm _ | .andImm _ | .eorImm _ | .adcImm _ | .ldyImm _ | .ldxImm _ | .ldaImm _ | .cpyImm _
  | .cmpImm _ | .cpxImm _ | .sbcImm _ => .IMM
  | .oraZp _ | .aslZp _ | .bitZp _ | .andZp _ | .rolZp _ | .eorZp _ | .lsrZp _ | .adcZp _
  | .rorZp _ | .styZp _ | .staZp _ | .stxZp _ | .ldyZp _ | .ldaZp _ | .ldxZp _ | .cpyZp _
  | .cmpZp _ | .decZp _ | .cpxZp _ | .sbcZp _ | .incZp _ => .ZP
  | .oraZpx _ | .aslZpx _ | .andZpx _ | .rolZpx _ | .eorZpx _ | .lsrZpx _ | .adcZpx _ | .rorZpx _
  | .styZpx _ | .staZpx _ | .ldyZpx _ | .ldaZpx _ | .cmpZpx _ | .decZpx _ | .sbcZpx _ | .incZpx _ => .ZPX
  | .stxZpy _ | .ldxZpy _ => .ZPY
  | .bpl _ | .bmi _ | .bvc _ | .bvs _ | .bcc _ | .bcs _ | .bne _ | .beq _ => .REL
  | .oraAbs _ | .aslAbs _ | .jsr _ | .bitAbs _ | .andAbs _ | .rolAbs _ | .jmpAbs _ | .eorAbs _
  | .lsrAbs _ | .adcAbs _ | .rorAbs _ | .styAbs _ | .staAbs _ | .stxAbs _ | .ldyAbs _ | .ldaAbs _
  | .ldxAbs _ | .cpyAbs _ | .cmpAbs _ | .decAbs _ | .cpxAbs _ | .sbcAbs _ | .incAbs _ => .ABS
  | .oraAbx _ | .aslAbx _ | .andAbx _ | .rolAbx _ | .eorAbx _ | .lsrAbx _ | .adcAbx _ | .rorAbx _
  | .staAbx _ | .ldyAbx _ | .ldaAbx _ | .cmpAbx _ | .decAbx _ | .sbcAbx _ | .incAbx _ => .ABX
  | .oraAby _ | .andAby _ | .eorAby _ | .adcAby _ | .staAby _ | .ldaAby _ | .ldxAby _ | .cmpAby _
  | .sbcAby _ => .ABY
  | .jmpInd _ => .IND
  | .oraIzx _ | .andIzx _ | .eorIzx _ | .adcIzx _ | .staIzx _ | .ldaIzx _ | .cmpIzx _ | .sbcIzx _ => .IZX
  | .oraIzy _ | .andIzy _ | .eorIzy _ | .adcIzy _ | .staIzy _ | .ldaIzy _ | .cmpIzy _ | .sbcIzy _ => .IZY

/-- The length in bytes of an instruction, a function of its format alone (R82). -/
def Instr.length (i : Instr) : Nat := i.mode.length

end Sys2Proof
end

