-- ==== Sys2Proof/WellFormed.lean ====
section
/-! DEFINITION. What the spec asks of terms beyond their types. No operand is ill-formed: "Operand bytes are never checked:
all 256 values of `b1` and `b2` are legal in every format" (`30_encoding.md` R84), so every `Instr` is well formed by its
type alone. The checks below are those the spec makes: an instruction must end below 65536 where it is placed
(`60_exceptions.md` R302), a `Load` must fit (`20_memory.md` R64), and the opcode table holds one row per opcode
with the length of its format (`30_encoding.md` R82, R85). -/

namespace Sys2Proof

/-- All bytes of `i`, placed at `pc`, lie inside memory: otherwise its fetch faults (`60_exceptions.md` R302). -/
def Instr.fitsAt (i : Instr) (pc : Addr) : Bool := decide (pc.toNat + i.length ≤ Config.memSize)

/-- `len` bytes at `origin` lie inside memory, the precondition of `Load` (`20_memory.md` R64). -/
def loadFits (len : Nat) (origin : Addr) : Bool := decide (origin.toNat + len ≤ Config.memSize)

/-- An entry's stored length is the length of its format (`30_encoding.md` R82). -/
def TableEntry.lengthFits (e : TableEntry) : Bool := decide (e.length = e.mode.length)

/-- No opcode has two rows, and every row's length is its format's (`30_encoding.md` R82, R85). -/
def tableWellFormed : List (Byte × TableEntry) → Bool
  | [] => true
  | r :: rest => r.2.lengthFits && rest.all (fun q => q.1 != r.1) && tableWellFormed rest

end Sys2Proof
end

