-- ==== Sys2Proof/Decode.lean ====
section
/-! DEFINITION. The unit `instruction_decoder` (`30_encoding.md` R80 to R94): the opcode table, `Decode`, the handlers'
switches, the decoder of a byte sequence and, after it, the encoder. The byte-order and extension helpers stand here too. -/

namespace Sys2Proof

/-- The concatenation `hi:lo` (`00_scope.md` R13). -/
def word16 (hi lo : Byte) : Addr := hi ++ lo

/-- Bits 7:0 of a 16-bit value. -/
def lowByte (a : Addr) : Byte := a.extractLsb' 0 8

/-- Bits 15:8 of a 16-bit value. -/
def highByte (a : Addr) : Byte := a.extractLsb' 8 8

/-- `zext_16` (`00_scope.md` R14). -/
def zext16 (b : Byte) : Addr := b.setWidth 16

/-- `sext_16`: the byte read as a signed 8-bit number (`00_scope.md` R14). -/
def sext16 (b : Byte) : Addr := b.signExtend 16

/-- A row of the opcode table, its columns in the order of R93. -/
def row (opcode : Byte) (m : Mnemonic) (f : Mode) (len cycles : Nat) (flags : List Flag) : Byte × TableEntry :=
  (opcode, ⟨m, f, len, cycles, flags⟩)

/-- R93, the rows of opcodes 0x00 to 0x0F. -/
def opcodeRows0 : List (Byte × TableEntry) := [
  row 0x00 .BRK .IMP 1 7 [.B],
  row 0x01 .ORA .IZX 2 6 [.N, .Z],
  row 0x05 .ORA .ZP 2 3 [.N, .Z],
  row 0x06 .ASL .ZP 2 5 [.N, .Z, .C],
  row 0x08 .PHP .IMP 1 3 [],
  row 0x09 .ORA .IMM 2 2 [.N, .Z],
  row 0x0A .ASL .ACC 1 2 [.N, .Z, .C],
  row 0x0D .ORA .ABS 3 4 [.N, .Z],
  row 0x0E .ASL .ABS 3 6 [.N, .Z, .C]]

/-- R93, the rows of opcodes 0x10 to 0x1F. -/
def opcodeRows1 : List (Byte × TableEntry) := [
  row 0x10 .BPL .REL 2 2 [],
  row 0x11 .ORA .IZY 2 5 [.N, .Z],
  row 0x15 .ORA .ZPX 2 4 [.N, .Z],
  row 0x16 .ASL .ZPX 2 6 [.N, .Z, .C],
  row 0x18 .CLC .IMP 1 2 [.C],
  row 0x19 .ORA .ABY 3 4 [.N, .Z],
  row 0x1D .ORA .ABX 3 4 [.N, .Z],
  row 0x1E .ASL .ABX 3 7 [.N, .Z, .C]]

/-- R93, the rows of opcodes 0x20 to 0x2F. -/
def opcodeRows2 : List (Byte × TableEntry) := [
  row 0x20 .JSR .ABS 3 6 [],
  row 0x21 .AND .IZX 2 6 [.N, .Z],
  row 0x24 .BIT .ZP 2 3 [.N, .V, .Z],
  row 0x25 .AND .ZP 2 3 [.N, .Z],
  row 0x26 .ROL .ZP 2 5 [.N, .Z, .C],
  row 0x28 .PLP .IMP 1 4 [.N, .V, .U, .B, .D, .I, .Z, .C],
  row 0x29 .AND .IMM 2 2 [.N, .Z],
  row 0x2A .ROL .ACC 1 2 [.N, .Z, .C],
  row 0x2C .BIT .ABS 3 4 [.N, .V, .Z],
  row 0x2D .AND .ABS 3 4 [.N, .Z],
  row 0x2E .ROL .ABS 3 6 [.N, .Z, .C]]

/-- R93, the rows of opcodes 0x30 to 0x3F. -/
def opcodeRows3 : List (Byte × TableEntry) := [
  row 0x30 .BMI .REL 2 2 [],
  row 0x31 .AND .IZY 2 5 [.N, .Z],
  row 0x35 .AND .ZPX 2 4 [.N, .Z],
  row 0x36 .ROL .ZPX 2 6 [.N, .Z, .C],
  row 0x38 .SEC .IMP 1 2 [.C],
  row 0x39 .AND .ABY 3 4 [.N, .Z],
  row 0x3D .AND .ABX 3 4 [.N, .Z],
  row 0x3E .ROL .ABX 3 7 [.N, .Z, .C]]

/-- R93, the rows of opcodes 0x40 to 0x4F. -/
def opcodeRows4 : List (Byte × TableEntry) := [
  row 0x40 .RTI .IMP 1 6 [.N, .V, .U, .B, .D, .I, .Z, .C],
  row 0x41 .EOR .IZX 2 6 [.N, .Z],
  row 0x45 .EOR .ZP 2 3 [.N, .Z],
  row 0x46 .LSR .ZP 2 5 [.N, .Z, .C],
  row 0x48 .PHA .IMP 1 3 [],
  row 0x49 .EOR .IMM 2 2 [.N, .Z],
  row 0x4A .LSR .ACC 1 2 [.N, .Z, .C],
  row 0x4C .JMP .ABS 3 3 [],
  row 0x4D .EOR .ABS 3 4 [.N, .Z],
  row 0x4E .LSR .ABS 3 6 [.N, .Z, .C]]

/-- R93, the rows of opcodes 0x50 to 0x5F. -/
def opcodeRows5 : List (Byte × TableEntry) := [
  row 0x50 .BVC .REL 2 2 [],
  row 0x51 .EOR .IZY 2 5 [.N, .Z],
  row 0x55 .EOR .ZPX 2 4 [.N, .Z],
  row 0x56 .LSR .ZPX 2 6 [.N, .Z, .C],
  row 0x58 .CLI .IMP 1 2 [.I],
  row 0x59 .EOR .ABY 3 4 [.N, .Z],
  row 0x5D .EOR .ABX 3 4 [.N, .Z],
  row 0x5E .LSR .ABX 3 7 [.N, .Z, .C]]

/-- R93, the rows of opcodes 0x60 to 0x6F. -/
def opcodeRows6 : List (Byte × TableEntry) := [
  row 0x60 .RTS .IMP 1 6 [],
  row 0x61 .ADC .IZX 2 6 [.N, .V, .Z, .C],
  row 0x65 .ADC .ZP 2 3 [.N, .V, .Z, .C],
  row 0x66 .ROR .ZP 2 5 [.N, .Z, .C],
  row 0x68 .PLA .IMP 1 4 [.N, .Z],
  row 0x69 .ADC .IMM 2 2 [.N, .V, .Z, .C],
  row 0x6A .ROR .ACC 1 2 [.N, .Z, .C],
  row 0x6C .JMP .IND 3 5 [],
  row 0x6D .ADC .ABS 3 4 [.N, .V, .Z, .C],
  row 0x6E .ROR .ABS 3 6 [.N, .Z, .C]]

/-- R93, the rows of opcodes 0x70 to 0x7F. -/
def opcodeRows7 : List (Byte × TableEntry) := [
  row 0x70 .BVS .REL 2 2 [],
  row 0x71 .ADC .IZY 2 5 [.N, .V, .Z, .C],
  row 0x75 .ADC .ZPX 2 4 [.N, .V, .Z, .C],
  row 0x76 .ROR .ZPX 2 6 [.N, .Z, .C],
  row 0x78 .SEI .IMP 1 2 [.I],
  row 0x79 .ADC .ABY 3 4 [.N, .V, .Z, .C],
  row 0x7D .ADC .ABX 3 4 [.N, .V, .Z, .C],
  row 0x7E .ROR .ABX 3 7 [.N, .Z, .C]]

/-- R93, the rows of opcodes 0x80 to 0x8F. -/
def opcodeRows8 : List (Byte × TableEntry) := [
  row 0x81 .STA .IZX 2 6 [],
  row 0x84 .STY .ZP 2 3 [],
  row 0x85 .STA .ZP 2 3 [],
  row 0x86 .STX .ZP 2 3 [],
  row 0x88 .DEY .IMP 1 2 [.N, .Z],
  row 0x8A .TXA .IMP 1 2 [.N, .Z],
  row 0x8C .STY .ABS 3 4 [],
  row 0x8D .STA .ABS 3 4 [],
  row 0x8E .STX .ABS 3 4 []]

/-- R93, the rows of opcodes 0x90 to 0x9F. -/
def opcodeRows9 : List (Byte × TableEntry) := [
  row 0x90 .BCC .REL 2 2 [],
  row 0x91 .STA .IZY 2 6 [],
  row 0x94 .STY .ZPX 2 4 [],
  row 0x95 .STA .ZPX 2 4 [],
  row 0x96 .STX .ZPY 2 4 [],
  row 0x98 .TYA .IMP 1 2 [.N, .Z],
  row 0x99 .STA .ABY 3 5 [],
  row 0x9A .TXS .IMP 1 2 [],
  row 0x9D .STA .ABX 3 5 []]

/-- R93, the rows of opcodes 0xA0 to 0xAF. -/
def opcodeRowsA : List (Byte × TableEntry) := [
  row 0xA0 .LDY .IMM 2 2 [.N, .Z],
  row 0xA1 .LDA .IZX 2 6 [.N, .Z],
  row 0xA2 .LDX .IMM 2 2 [.N, .Z],
  row 0xA4 .LDY .ZP 2 3 [.N, .Z],
  row 0xA5 .LDA .ZP 2 3 [.N, .Z],
  row 0xA6 .LDX .ZP 2 3 [.N, .Z],
  row 0xA8 .TAY .IMP 1 2 [.N, .Z],
  row 0xA9 .LDA .IMM 2 2 [.N, .Z],
  row 0xAA .TAX .IMP 1 2 [.N, .Z],
  row 0xAC .LDY .ABS 3 4 [.N, .Z],
  row 0xAD .LDA .ABS 3 4 [.N, .Z],
  row 0xAE .LDX .ABS 3 4 [.N, .Z]]

/-- R93, the rows of opcodes 0xB0 to 0xBF. -/
def opcodeRowsB : List (Byte × TableEntry) := [
  row 0xB0 .BCS .REL 2 2 [],
  row 0xB1 .LDA .IZY 2 5 [.N, .Z],
  row 0xB4 .LDY .ZPX 2 4 [.N, .Z],
  row 0xB5 .LDA .ZPX 2 4 [.N, .Z],
  row 0xB6 .LDX .ZPY 2 4 [.N, .Z],
  row 0xB8 .CLV .IMP 1 2 [.V],
  row 0xB9 .LDA .ABY 3 4 [.N, .Z],
  row 0xBA .TSX .IMP 1 2 [.N, .Z],
  row 0xBC .LDY .ABX 3 4 [.N, .Z],
  row 0xBD .LDA .ABX 3 4 [.N, .Z],
  row 0xBE .LDX .ABY 3 4 [.N, .Z]]

/-- R93, the rows of opcodes 0xC0 to 0xCF. -/
def opcodeRowsC : List (Byte × TableEntry) := [
  row 0xC0 .CPY .IMM 2 2 [.N, .Z, .C],
  row 0xC1 .CMP .IZX 2 6 [.N, .Z, .C],
  row 0xC4 .CPY .ZP 2 3 [.N, .Z, .C],
  row 0xC5 .CMP .ZP 2 3 [.N, .Z, .C],
  row 0xC6 .DEC .ZP 2 5 [.N, .Z],
  row 0xC8 .INY .IMP 1 2 [.N, .Z],
  row 0xC9 .CMP .IMM 2 2 [.N, .Z, .C],
  row 0xCA .DEX .IMP 1 2 [.N, .Z],
  row 0xCC .CPY .ABS 3 4 [.N, .Z, .C],
  row 0xCD .CMP .ABS 3 4 [.N, .Z, .C],
  row 0xCE .DEC .ABS 3 6 [.N, .Z]]

/-- R93, the rows of opcodes 0xD0 to 0xDF. -/
def opcodeRowsD : List (Byte × TableEntry) := [
  row 0xD0 .BNE .REL 2 2 [],
  row 0xD1 .CMP .IZY 2 5 [.N, .Z, .C],
  row 0xD5 .CMP .ZPX 2 4 [.N, .Z, .C],
  row 0xD6 .DEC .ZPX 2 6 [.N, .Z],
  row 0xD8 .CLD .IMP 1 2 [.D],
  row 0xD9 .CMP .ABY 3 4 [.N, .Z, .C],
  row 0xDD .CMP .ABX 3 4 [.N, .Z, .C],
  row 0xDE .DEC .ABX 3 7 [.N, .Z]]

/-- R93, the rows of opcodes 0xE0 to 0xEF. -/
def opcodeRowsE : List (Byte × TableEntry) := [
  row 0xE0 .CPX .IMM 2 2 [.N, .Z, .C],
  row 0xE1 .SBC .IZX 2 6 [.N, .V, .Z, .C],
  row 0xE4 .CPX .ZP 2 3 [.N, .Z, .C],
  row 0xE5 .SBC .ZP 2 3 [.N, .V, .Z, .C],
  row 0xE6 .INC .ZP 2 5 [.N, .Z],
  row 0xE8 .INX .IMP 1 2 [.N, .Z],
  row 0xE9 .SBC .IMM 2 2 [.N, .V, .Z, .C],
  row 0xEA .NOP .IMP 1 2 [],
  row 0xEC .CPX .ABS 3 4 [.N, .Z, .C],
  row 0xED .SBC .ABS 3 4 [.N, .V, .Z, .C],
  row 0xEE .INC .ABS 3 6 [.N, .Z]]

/-- R93, the rows of opcodes 0xF0 to 0xFF. -/
def opcodeRowsF : List (Byte × TableEntry) := [
  row 0xF0 .BEQ .REL 2 2 [],
  row 0xF1 .SBC .IZY 2 5 [.N, .V, .Z, .C],
  row 0xF5 .SBC .ZPX 2 4 [.N, .V, .Z, .C],
  row 0xF6 .INC .ZPX 2 6 [.N, .Z],
  row 0xF8 .SED .IMP 1 2 [.D],
  row 0xF9 .SBC .ABY 3 4 [.N, .V, .Z, .C],
  row 0xFD .SBC .ABX 3 4 [.N, .V, .Z, .C],
  row 0xFE .INC .ABX 3 7 [.N, .Z]]

/-- The 151 defined opcodes, in opcode order (R93). -/
def opcodeTable : List (Byte × TableEntry) :=
  opcodeRows0 ++ opcodeRows1 ++ opcodeRows2 ++ opcodeRows3 ++ opcodeRows4 ++ opcodeRows5 ++ opcodeRows6 ++ opcodeRows7
    ++ opcodeRows8 ++ opcodeRows9 ++ opcodeRowsA ++ opcodeRowsB ++ opcodeRowsC ++ opcodeRowsD ++ opcodeRowsE ++ opcodeRowsF

/-- `Decode(opcode)`: the table entry of a defined opcode, none for the 105 others (R83). -/
def decodeOpcode (opcode : Byte) : Option TableEntry := opcodeTable.lookup opcode

/-- A handler's arm for a mnemonic that has the one format `want`. -/
def onlyMode (want f : Mode) (build : Byte → Byte → Instr) : Option (Byte → Byte → Instr) :=
  if f = want then some build else none

/-- The handlers' switches (R124): the variant of mnemonic `m` with format `f`, as a function of the operand bytes
`b1`, `b2`; none where the handler has no such case, the fault `InternalDispatch` (`60_exceptions.md` R303). -/
def handlerVariant (m : Mnemonic) (f : Mode) : Option (Byte → Byte → Instr) :=
  match m with
  | .ADC =>
    match f with
    | .IMM => some (fun b1 _ => .adcImm b1)
    | .ZP => some (fun b1 _ => .adcZp b1)
    | .ZPX => some (fun b1 _ => .adcZpx b1)
    | .ABS => some (fun b1 b2 => .adcAbs (word16 b2 b1))
    | .ABX => some (fun b1 b2 => .adcAbx (word16 b2 b1))
    | .ABY => some (fun b1 b2 => .adcAby (word16 b2 b1))
    | .IZX => some (fun b1 _ => .adcIzx b1)
    | .IZY => some (fun b1 _ => .adcIzy b1)
    | _ => none
  | .AND =>
    match f with
    | .IMM => some (fun b1 _ => .andImm b1)
    | .ZP => some (fun b1 _ => .andZp b1)
    | .ZPX => some (fun b1 _ => .andZpx b1)
    | .ABS => some (fun b1 b2 => .andAbs (word16 b2 b1))
    | .ABX => some (fun b1 b2 => .andAbx (word16 b2 b1))
    | .ABY => some (fun b1 b2 => .andAby (word16 b2 b1))
    | .IZX => some (fun b1 _ => .andIzx b1)
    | .IZY => some (fun b1 _ => .andIzy b1)
    | _ => none
  | .ASL =>
    match f with
    | .ACC => some (fun _ _ => .aslAcc)
    | .ZP => some (fun b1 _ => .aslZp b1)
    | .ZPX => some (fun b1 _ => .aslZpx b1)
    | .ABS => some (fun b1 b2 => .aslAbs (word16 b2 b1))
    | .ABX => some (fun b1 b2 => .aslAbx (word16 b2 b1))
    | _ => none
  | .BCC => onlyMode .REL f (fun b1 _ => .bcc b1)
  | .BCS => onlyMode .REL f (fun b1 _ => .bcs b1)
  | .BEQ => onlyMode .REL f (fun b1 _ => .beq b1)
  | .BIT =>
    match f with
    | .ZP => some (fun b1 _ => .bitZp b1)
    | .ABS => some (fun b1 b2 => .bitAbs (word16 b2 b1))
    | _ => none
  | .BMI => onlyMode .REL f (fun b1 _ => .bmi b1)
  | .BNE => onlyMode .REL f (fun b1 _ => .bne b1)
  | .BPL => onlyMode .REL f (fun b1 _ => .bpl b1)
  | .BRK => onlyMode .IMP f (fun _ _ => .brk)
  | .BVC => onlyMode .REL f (fun b1 _ => .bvc b1)
  | .BVS => onlyMode .REL f (fun b1 _ => .bvs b1)
  | .CLC => onlyMode .IMP f (fun _ _ => .clc)
  | .CLD => onlyMode .IMP f (fun _ _ => .cld)
  | .CLI => onlyMode .IMP f (fun _ _ => .cli)
  | .CLV => onlyMode .IMP f (fun _ _ => .clv)
  | .CMP =>
    match f with
    | .IMM => some (fun b1 _ => .cmpImm b1)
    | .ZP => some (fun b1 _ => .cmpZp b1)
    | .ZPX => some (fun b1 _ => .cmpZpx b1)
    | .ABS => some (fun b1 b2 => .cmpAbs (word16 b2 b1))
    | .ABX => some (fun b1 b2 => .cmpAbx (word16 b2 b1))
    | .ABY => some (fun b1 b2 => .cmpAby (word16 b2 b1))
    | .IZX => some (fun b1 _ => .cmpIzx b1)
    | .IZY => some (fun b1 _ => .cmpIzy b1)
    | _ => none
  | .CPX =>
    match f with
    | .IMM => some (fun b1 _ => .cpxImm b1)
    | .ZP => some (fun b1 _ => .cpxZp b1)
    | .ABS => some (fun b1 b2 => .cpxAbs (word16 b2 b1))
    | _ => none
  | .CPY =>
    match f with
    | .IMM => some (fun b1 _ => .cpyImm b1)
    | .ZP => some (fun b1 _ => .cpyZp b1)
    | .ABS => some (fun b1 b2 => .cpyAbs (word16 b2 b1))
    | _ => none
  | .DEC =>
    match f with
    | .ZP => some (fun b1 _ => .decZp b1)
    | .ZPX => some (fun b1 _ => .decZpx b1)
    | .ABS => some (fun b1 b2 => .decAbs (word16 b2 b1))
    | .ABX => some (fun b1 b2 => .decAbx (word16 b2 b1))
    | _ => none
  | .DEX => onlyMode .IMP f (fun _ _ => .dex)
  | .DEY => onlyMode .IMP f (fun _ _ => .dey)
  | .EOR =>
    match f with
    | .IMM => some (fun b1 _ => .eorImm b1)
    | .ZP => some (fun b1 _ => .eorZp b1)
    | .ZPX => some (fun b1 _ => .eorZpx b1)
    | .ABS => some (fun b1 b2 => .eorAbs (word16 b2 b1))
    | .ABX => some (fun b1 b2 => .eorAbx (word16 b2 b1))
    | .ABY => some (fun b1 b2 => .eorAby (word16 b2 b1))
    | .IZX => some (fun b1 _ => .eorIzx b1)
    | .IZY => some (fun b1 _ => .eorIzy b1)
    | _ => none
  | .INC =>
    match f with
    | .ZP => some (fun b1 _ => .incZp b1)
    | .ZPX => some (fun b1 _ => .incZpx b1)
    | .ABS => some (fun b1 b2 => .incAbs (word16 b2 b1))
    | .ABX => some (fun b1 b2 => .incAbx (word16 b2 b1))
    | _ => none
  | .INX => onlyMode .IMP f (fun _ _ => .inx)
  | .INY => onlyMode .IMP f (fun _ _ => .iny)
  | .JMP =>
    match f with
    | .ABS => some (fun b1 b2 => .jmpAbs (word16 b2 b1))
    | .IND => some (fun b1 b2 => .jmpInd (word16 b2 b1))
    | _ => none
  | .JSR => onlyMode .ABS f (fun b1 b2 => .jsr (word16 b2 b1))
  | .LDA =>
    match f with
    | .IMM => some (fun b1 _ => .ldaImm b1)
    | .ZP => some (fun b1 _ => .ldaZp b1)
    | .ZPX => some (fun b1 _ => .ldaZpx b1)
    | .ABS => some (fun b1 b2 => .ldaAbs (word16 b2 b1))
    | .ABX => some (fun b1 b2 => .ldaAbx (word16 b2 b1))
    | .ABY => some (fun b1 b2 => .ldaAby (word16 b2 b1))
    | .IZX => some (fun b1 _ => .ldaIzx b1)
    | .IZY => some (fun b1 _ => .ldaIzy b1)
    | _ => none
  | .LDX =>
    match f with
    | .IMM => some (fun b1 _ => .ldxImm b1)
    | .ZP => some (fun b1 _ => .ldxZp b1)
    | .ZPY => some (fun b1 _ => .ldxZpy b1)
    | .ABS => some (fun b1 b2 => .ldxAbs (word16 b2 b1))
    | .ABY => some (fun b1 b2 => .ldxAby (word16 b2 b1))
    | _ => none
  | .LDY =>
    match f with
    | .IMM => some (fun b1 _ => .ldyImm b1)
    | .ZP => some (fun b1 _ => .ldyZp b1)
    | .ZPX => some (fun b1 _ => .ldyZpx b1)
    | .ABS => some (fun b1 b2 => .ldyAbs (word16 b2 b1))
    | .ABX => some (fun b1 b2 => .ldyAbx (word16 b2 b1))
    | _ => none
  | .LSR =>
    match f with
    | .ACC => some (fun _ _ => .lsrAcc)
    | .ZP => some (fun b1 _ => .lsrZp b1)
    | .ZPX => some (fun b1 _ => .lsrZpx b1)
    | .ABS => some (fun b1 b2 => .lsrAbs (word16 b2 b1))
    | .ABX => some (fun b1 b2 => .lsrAbx (word16 b2 b1))
    | _ => none
  | .NOP => onlyMode .IMP f (fun _ _ => .nop)
  | .ORA =>
    match f with
    | .IMM => some (fun b1 _ => .oraImm b1)
    | .ZP => some (fun b1 _ => .oraZp b1)
    | .ZPX => some (fun b1 _ => .oraZpx b1)
    | .ABS => some (fun b1 b2 => .oraAbs (word16 b2 b1))
    | .ABX => some (fun b1 b2 => .oraAbx (word16 b2 b1))
    | .ABY => some (fun b1 b2 => .oraAby (word16 b2 b1))
    | .IZX => some (fun b1 _ => .oraIzx b1)
    | .IZY => some (fun b1 _ => .oraIzy b1)
    | _ => none
  | .PHA => onlyMode .IMP f (fun _ _ => .pha)
  | .PHP => onlyMode .IMP f (fun _ _ => .php)
  | .PLA => onlyMode .IMP f (fun _ _ => .pla)
  | .PLP => onlyMode .IMP f (fun _ _ => .plp)
  | .ROL =>
    match f with
    | .ACC => some (fun _ _ => .rolAcc)
    | .ZP => some (fun b1 _ => .rolZp b1)
    | .ZPX => some (fun b1 _ => .rolZpx b1)
    | .ABS => some (fun b1 b2 => .rolAbs (word16 b2 b1))
    | .ABX => some (fun b1 b2 => .rolAbx (word16 b2 b1))
    | _ => none
  | .ROR =>
    match f with
    | .ACC => some (fun _ _ => .rorAcc)
    | .ZP => some (fun b1 _ => .rorZp b1)
    | .ZPX => some (fun b1 _ => .rorZpx b1)
    | .ABS => some (fun b1 b2 => .rorAbs (word16 b2 b1))
    | .ABX => some (fun b1 b2 => .rorAbx (word16 b2 b1))
    | _ => none
  | .RTI => onlyMode .IMP f (fun _ _ => .rti)
  | .RTS => onlyMode .IMP f (fun _ _ => .rts)
  | .SBC =>
    match f with
    | .IMM => some (fun b1 _ => .sbcImm b1)
    | .ZP => some (fun b1 _ => .sbcZp b1)
    | .ZPX => some (fun b1 _ => .sbcZpx b1)
    | .ABS => some (fun b1 b2 => .sbcAbs (word16 b2 b1))
    | .ABX => some (fun b1 b2 => .sbcAbx (word16 b2 b1))
    | .ABY => some (fun b1 b2 => .sbcAby (word16 b2 b1))
    | .IZX => some (fun b1 _ => .sbcIzx b1)
    | .IZY => some (fun b1 _ => .sbcIzy b1)
    | _ => none
  | .SEC => onlyMode .IMP f (fun _ _ => .sec)
  | .SED => onlyMode .IMP f (fun _ _ => .sed)
  | .SEI => onlyMode .IMP f (fun _ _ => .sei)
  | .STA =>
    match f with
    | .ZP => some (fun b1 _ => .staZp b1)
    | .ZPX => some (fun b1 _ => .staZpx b1)
    | .ABS => some (fun b1 b2 => .staAbs (word16 b2 b1))
    | .ABX => some (fun b1 b2 => .staAbx (word16 b2 b1))
    | .ABY => some (fun b1 b2 => .staAby (word16 b2 b1))
    | .IZX => some (fun b1 _ => .staIzx b1)
    | .IZY => some (fun b1 _ => .staIzy b1)
    | _ => none
  | .STX =>
    match f with
    | .ZP => some (fun b1 _ => .stxZp b1)
    | .ZPY => some (fun b1 _ => .stxZpy b1)
    | .ABS => some (fun b1 b2 => .stxAbs (word16 b2 b1))
    | _ => none
  | .STY =>
    match f with
    | .ZP => some (fun b1 _ => .styZp b1)
    | .ZPX => some (fun b1 _ => .styZpx b1)
    | .ABS => some (fun b1 b2 => .styAbs (word16 b2 b1))
    | _ => none
  | .TAX => onlyMode .IMP f (fun _ _ => .tax)
  | .TAY => onlyMode .IMP f (fun _ _ => .tay)
  | .TSX => onlyMode .IMP f (fun _ _ => .tsx)
  | .TXA => onlyMode .IMP f (fun _ _ => .txa)
  | .TXS => onlyMode .IMP f (fun _ _ => .txs)
  | .TYA => onlyMode .IMP f (fun _ _ => .tya)

/-- Why bytes are not an instruction. -/
inductive DecodeReject
  /-- There is no byte at all. -/
  | noBytes
  /-- The first byte is one of the 105 undefined opcodes (R84, R94). -/
  | undefinedOpcode (opcode : Byte)
  /-- Only `present` of the instruction's bytes are there. -/
  | truncated (opcode : Byte) (present : Nat)
  /-- The handler of `m` has no case for the opcode (R124); unreachable with the table of R93. -/
  | internalDispatch (opcode : Byte) (m : Mnemonic)
deriving DecidableEq, Repr

/-- The operand bytes `b1`, `b2` of an instruction of `len` bytes, 0x00 for one the format lacks, and the bytes
after them (R80). -/
def takeOperands (len : Nat) (rest : List Byte) : Option (Byte × Byte × List Byte) :=
  match len, rest with
  | 1, rest => some (0, 0, rest)
  | 2, b1 :: rest => some (b1, 0, rest)
  | 3, b1 :: b2 :: rest => some (b1, b2, rest)
  | _, _ => none

/-- The instruction at the head of a byte sequence and the bytes after it, or why there is none. The tests stand in the
order of `60_exceptions.md` R306: undefined opcode, handler case, operand bytes. -/
def decode : List Byte → Except DecodeReject (Instr × List Byte)
  | [] => .error .noBytes
  | opcode :: rest =>
    match decodeOpcode opcode with
    | none => .error (.undefinedOpcode opcode)
    | some e =>
      match handlerVariant e.mnemonic e.mode with
      | none => .error (.internalDispatch opcode e.mnemonic)
      | some build =>
        match takeOperands e.length rest with
        | none => .error (.truncated opcode (1 + rest.length))
        | some (b1, b2, rest') => .ok (build b1 b2, rest')

/-- The low byte then the high byte of a 16-bit operand (R81, R91). -/
def littleEndian (a : Addr) : List Byte := [lowByte a, highByte a]

/-- The opcode byte of an instruction, written from the "Encodings" line of its own rule. -/
def Instr.opcode : Instr → Byte
  | .adcImm _ => 0x69  -- R130
  | .adcZp _ => 0x65  -- R130
  | .adcZpx _ => 0x75  -- R130
  | .adcAbs _ => 0x6D  -- R130
  | .adcAbx _ => 0x7D  -- R130
  | .adcAby _ => 0x79  -- R130
  | .adcIzx _ => 0x61  -- R130
  | .adcIzy _ => 0x71  -- R130
  | .sbcImm _ => 0xE9  -- R131
  | .sbcZp _ => 0xE5  -- R131
  | .sbcZpx _ => 0xF5  -- R131
  | .sbcAbs _ => 0xED  -- R131
  | .sbcAbx _ => 0xFD  -- R131
  | .sbcAby _ => 0xF9  -- R131
  | .sbcIzx _ => 0xE1  -- R131
  | .sbcIzy _ => 0xF1  -- R131
  | .cmpImm _ => 0xC9  -- R132
  | .cmpZp _ => 0xC5  -- R132
  | .cmpZpx _ => 0xD5  -- R132
  | .cmpAbs _ => 0xCD  -- R132
  | .cmpAbx _ => 0xDD  -- R132
  | .cmpAby _ => 0xD9  -- R132
  | .cmpIzx _ => 0xC1  -- R132
  | .cmpIzy _ => 0xD1  -- R132
  | .cpxImm _ => 0xE0  -- R133
  | .cpxZp _ => 0xE4  -- R133
  | .cpxAbs _ => 0xEC  -- R133
  | .cpyImm _ => 0xC0  -- R134
  | .cpyZp _ => 0xC4  -- R134
  | .cpyAbs _ => 0xCC  -- R134
  | .aslAcc => 0x0A  -- R150
  | .aslZp _ => 0x06  -- R150
  | .aslZpx _ => 0x16  -- R150
  | .aslAbs _ => 0x0E  -- R150
  | .aslAbx _ => 0x1E  -- R150
  | .lsrAcc => 0x4A  -- R151
  | .lsrZp _ => 0x46  -- R151
  | .lsrZpx _ => 0x56  -- R151
  | .lsrAbs _ => 0x4E  -- R151
  | .lsrAbx _ => 0x5E  -- R151
  | .rolAcc => 0x2A  -- R152
  | .rolZp _ => 0x26  -- R152
  | .rolZpx _ => 0x36  -- R152
  | .rolAbs _ => 0x2E  -- R152
  | .rolAbx _ => 0x3E  -- R152
  | .rorAcc => 0x6A  -- R153
  | .rorZp _ => 0x66  -- R153
  | .rorZpx _ => 0x76  -- R153
  | .rorAbs _ => 0x6E  -- R153
  | .rorAbx _ => 0x7E  -- R153
  | .bcc _ => 0x90  -- R171
  | .bcs _ => 0xB0  -- R172
  | .beq _ => 0xF0  -- R173
  | .bne _ => 0xD0  -- R174
  | .bmi _ => 0x30  -- R175
  | .bpl _ => 0x10  -- R176
  | .bvc _ => 0x50  -- R177
  | .bvs _ => 0x70  -- R178
  | .jmpAbs _ => 0x4C  -- R180
  | .jmpInd _ => 0x6C  -- R181
  | .jsr _ => 0x20  -- R182
  | .rts => 0x60  -- R183
  | .pha => 0x48  -- R200
  | .php => 0x08  -- R201
  | .pla => 0x68  -- R202
  | .plp => 0x28  -- R204
  | .inx => 0xE8  -- R210
  | .iny => 0xC8  -- R211
  | .dex => 0xCA  -- R212
  | .dey => 0x88  -- R213
  | .incZp _ => 0xE6  -- R214
  | .incZpx _ => 0xF6  -- R214
  | .incAbs _ => 0xEE  -- R214
  | .incAbx _ => 0xFE  -- R214
  | .decZp _ => 0xC6  -- R215
  | .decZpx _ => 0xD6  -- R215
  | .decAbs _ => 0xCE  -- R215
  | .decAbx _ => 0xDE  -- R215
  | .clc => 0x18  -- R220
  | .sec => 0x38  -- R221
  | .cld => 0xD8  -- R222
  | .sed => 0xF8  -- R223
  | .cli => 0x58  -- R224
  | .sei => 0x78  -- R225
  | .clv => 0xB8  -- R226
  | .tax => 0xAA  -- R230
  | .txa => 0x8A  -- R231
  | .tay => 0xA8  -- R232
  | .tya => 0x98  -- R233
  | .tsx => 0xBA  -- R234
  | .txs => 0x9A  -- R235
  | .brk => 0x00  -- R240
  | .nop => 0xEA  -- R241
  | .rti => 0x40  -- R242
  | .ldaImm _ => 0xA9  -- R250
  | .ldaZp _ => 0xA5  -- R250
  | .ldaZpx _ => 0xB5  -- R250
  | .ldaAbs _ => 0xAD  -- R250
  | .ldaAbx _ => 0xBD  -- R250
  | .ldaAby _ => 0xB9  -- R250
  | .ldaIzx _ => 0xA1  -- R250
  | .ldaIzy _ => 0xB1  -- R250
  | .ldxImm _ => 0xA2  -- R251
  | .ldxZp _ => 0xA6  -- R251
  | .ldxZpy _ => 0xB6  -- R251
  | .ldxAbs _ => 0xAE  -- R251
  | .ldxAby _ => 0xBE  -- R251
  | .ldyImm _ => 0xA0  -- R252
  | .ldyZp _ => 0xA4  -- R252
  | .ldyZpx _ => 0xB4  -- R252
  | .ldyAbs _ => 0xAC  -- R252
  | .ldyAbx _ => 0xBC  -- R252
  | .staZp _ => 0x85  -- R253
  | .staZpx _ => 0x95  -- R253
  | .staAbs _ => 0x8D  -- R253
  | .staAbx _ => 0x9D  -- R253
  | .staAby _ => 0x99  -- R253
  | .staIzx _ => 0x81  -- R253
  | .staIzy _ => 0x91  -- R253
  | .stxZp _ => 0x86  -- R254
  | .stxZpy _ => 0x96  -- R254
  | .stxAbs _ => 0x8E  -- R254
  | .styZp _ => 0x84  -- R255
  | .styZpx _ => 0x94  -- R255
  | .styAbs _ => 0x8C  -- R255
  | .andImm _ => 0x29  -- R256
  | .andZp _ => 0x25  -- R256
  | .andZpx _ => 0x35  -- R256
  | .andAbs _ => 0x2D  -- R256
  | .andAbx _ => 0x3D  -- R256
  | .andAby _ => 0x39  -- R256
  | .andIzx _ => 0x21  -- R256
  | .andIzy _ => 0x31  -- R256
  | .oraImm _ => 0x09  -- R257
  | .oraZp _ => 0x05  -- R257
  | .oraZpx _ => 0x15  -- R257
  | .oraAbs _ => 0x0D  -- R257
  | .oraAbx _ => 0x1D  -- R257
  | .oraAby _ => 0x19  -- R257
  | .oraIzx _ => 0x01  -- R257
  | .oraIzy _ => 0x11  -- R257
  | .eorImm _ => 0x49  -- R258
  | .eorZp _ => 0x45  -- R258
  | .eorZpx _ => 0x55  -- R258
  | .eorAbs _ => 0x4D  -- R258
  | .eorAbx _ => 0x5D  -- R258
  | .eorAby _ => 0x59  -- R258
  | .eorIzx _ => 0x41  -- R258
  | .eorIzy _ => 0x51  -- R258
  | .bitZp _ => 0x24  -- R259
  | .bitAbs _ => 0x2C  -- R259

/-- The operand bytes of an instruction, in the order they follow the opcode (R81). -/
def Instr.operandBytes : Instr → List Byte
  | .brk | .php | .aslAcc | .clc | .plp | .rolAcc | .sec | .rti
  | .pha | .lsrAcc | .cli | .rts | .pla | .rorAcc | .sei | .dey
  | .txa | .tya | .txs | .tay | .tax | .clv | .tsx | .iny
  | .dex | .cld | .inx | .nop | .sed => []
  | .oraIzx b | .oraZp b | .aslZp b | .oraImm b | .bpl b | .oraIzy b | .oraZpx b | .aslZpx b
  | .andIzx b | .bitZp b | .andZp b | .rolZp b | .andImm b | .bmi b | .andIzy b | .andZpx b
  | .rolZpx b | .eorIzx b | .eorZp b | .lsrZp b | .eorImm b | .bvc b | .eorIzy b | .eorZpx b
  | .lsrZpx b | .adcIzx b | .adcZp b | .rorZp b | .adcImm b | .bvs b | .adcIzy b | .adcZpx b
  | .rorZpx b | .staIzx b | .styZp b | .staZp b | .stxZp b | .bcc b | .staIzy b | .styZpx b
  | .staZpx b | .stxZpy b | .ldyImm b | .ldaIzx b | .ldxImm b | .ldyZp b | .ldaZp b | .ldxZp b
  | .ldaImm b | .bcs b | .ldaIzy b | .ldyZpx b | .ldaZpx b | .ldxZpy b | .cpyImm b | .cmpIzx b
  | .cpyZp b | .cmpZp b | .decZp b | .cmpImm b | .bne b | .cmpIzy b | .cmpZpx b | .decZpx b
  | .cpxImm b | .sbcIzx b | .cpxZp b | .sbcZp b | .incZp b | .sbcImm b | .beq b | .sbcIzy b
  | .sbcZpx b | .incZpx b => [b]
  | .oraAbs a | .aslAbs a | .oraAby a | .oraAbx a | .aslAbx a | .jsr a | .bitAbs a | .andAbs a
  | .rolAbs a | .andAby a | .andAbx a | .rolAbx a | .jmpAbs a | .eorAbs a | .lsrAbs a | .eorAby a
  | .eorAbx a | .lsrAbx a | .jmpInd a | .adcAbs a | .rorAbs a | .adcAby a | .adcAbx a | .rorAbx a
  | .styAbs a | .staAbs a | .stxAbs a | .staAby a | .staAbx a | .ldyAbs a | .ldaAbs a | .ldxAbs a
  | .ldaAby a | .ldyAbx a | .ldaAbx a | .ldxAby a | .cpyAbs a | .cmpAbs a | .decAbs a | .cmpAby a
  | .cmpAbx a | .decAbx a | .cpxAbs a | .sbcAbs a | .incAbs a | .sbcAby a | .sbcAbx a | .incAbx a => littleEndian a

/-- The bytes of an instruction: its opcode, then its operand bytes (R80). -/
def encode (i : Instr) : List Byte := i.opcode :: i.operandBytes

/-- The `n` lowest bytes of `w`, the least significant first. -/
def bytesOfNat : Nat → Nat → List Byte
  | 0, _ => []
  | n + 1, w => BitVec.ofNat 8 w :: bytesOfNat n (w / 256)

/-- The three bytes of an instruction whose `nbits` lowest bits are those of `w` and whose other bits are 0. -/
def tableWordBytes (nbits w : Nat) : List Byte := bytesOfNat 3 (w % 2 ^ nbits)

/-- What the decoder reads from an instruction whose bits, numbered as the opcode table numbers them, are `w`. -/
def decodeTableWord (nbits w : Nat) : Option Instr :=
  match decode (tableWordBytes nbits w) with
  | .ok (i, _) => some i
  | .error _ => none

end Sys2Proof
end

