-- ==== Sys2Proof/Machine/Alu.lean ====
section
/-! DEFINITION. The unit `6502_alu` (`00_scope.md` R8): pure functions of bytes and a carry-in, computed exactly in
unbounded integers and then reduced (`00_scope.md` R14), giving the result and the raw carry and overflow. -/

namespace Sys2Proof.Machine

/-- An ALU answer: the 8-bit result and the raw condition outputs (R8). -/
structure AluOut where
  result : Byte
  carry : Bool
  overflow : Bool
deriving DecidableEq, Repr

/-- Add with carry (`40_arithmetic_compare.md` R130). -/
def aluAdc (a m : Byte) (c : Bool) : AluOut :=
  let sum := a.toNat + m.toNat + c.toNat
  let r := BitVec.ofNat 8 sum
  { result := r, carry := decide (sum > 0xFF), overflow := (a.msb == m.msb) && (r.msb != a.msb) }

/-- Subtract with borrow (`40_arithmetic_compare.md` R131). -/
def aluSbc (a m : Byte) (c : Bool) : AluOut :=
  let diff : Int := (a.toNat : Int) - m.toNat - (1 - c.toNat)
  let r := BitVec.ofInt 8 diff
  { result := r, carry := decide (0 ≤ diff), overflow := (a.msb != m.msb) && (a.msb != r.msb) }

/-- Compare (`40_arithmetic_compare.md` R132): the wrapped difference and the unsigned comparison. -/
def aluCompare (r m : Byte) : AluOut :=
  { result := r - m, carry := decide (m.toNat ≤ r.toNat), overflow := false }

/-- Shift left; the old carry is not read (`41_shift_rotate.md` R150). -/
def aluAsl (v : Byte) (_c : Bool) : AluOut :=
  { result := BitVec.ofNat 8 (v.toNat * 2), carry := v.getLsbD 7, overflow := false }

/-- Shift right; the old carry is not read (`41_shift_rotate.md` R151). -/
def aluLsr (v : Byte) (_c : Bool) : AluOut :=
  { result := BitVec.ofNat 8 (v.toNat / 2), carry := v.getLsbD 0, overflow := false }

/-- Rotate left through the carry (`41_shift_rotate.md` R152). -/
def aluRol (v : Byte) (c : Bool) : AluOut :=
  { result := BitVec.ofNat 8 (v.toNat * 2 % 256 + c.toNat), carry := v.getLsbD 7, overflow := false }

/-- Rotate right through the carry (`41_shift_rotate.md` R153). -/
def aluRor (v : Byte) (c : Bool) : AluOut :=
  { result := BitVec.ofNat 8 (v.toNat / 2 + c.toNat * 128), carry := v.getLsbD 0, overflow := false }

/-- Increment with wrap (`44_incdec_flags_transfer.md` R210). -/
def aluInc (v : Byte) : Byte := v + 1

/-- Decrement with wrap (`44_incdec_flags_transfer.md` R212). -/
def aluDec (v : Byte) : Byte := v - 1

end Sys2Proof.Machine
end

