-- ==== Sys2Proof/Machine/Flags.lean ====
section
/-! DEFINITION. The unit `flag_update_unit` (`00_scope.md` R9): reading and writing single bits of `stat`, and the new
`stat` of every kind of instruction. Each function touches only the bits its instruction's rule names
(`10_state.md` R28). -/

namespace Sys2Proof.Machine

/-- The bit number of a flag (`10_state.md` R27). -/
def flagIndex : Flag → Nat
  | .C => 0
  | .Z => 1
  | .I => 2
  | .D => 3
  | .B => 4
  | .U => 5
  | .V => 6
  | .N => 7

/-- The mask of a flag (`10_state.md` R27). -/
def flagMask (f : Flag) : Byte := 1#8 <<< flagIndex f

/-- One bit of a status byte. -/
def getFlag (f : Flag) (st : Byte) : Bool := st.getLsbD (flagIndex f)

/-- A status byte with one bit written and all others unchanged (`00_scope.md` R15). -/
def putFlag (f : Flag) (b : Bool) (st : Byte) : Byte :=
  if b then st ||| flagMask f else st &&& ~~~ flagMask f

/-- `SetNZ(v)` (`10_state.md` R31). -/
def setNZ (v : Byte) (st : Byte) : Byte := putFlag .N v.msb (putFlag .Z (v == 0) st)

/-- The new `stat` of ADC and SBC: C, V, Z, N (`40_arithmetic_compare.md` R130, R131). -/
def statCVZN (out : AluOut) (st : Byte) : Byte :=
  setNZ out.result (putFlag .V out.overflow (putFlag .C out.carry st))

/-- The new `stat` of the compares, shifts and rotates: C, Z, N (R132, R154). -/
def statCZN (out : AluOut) (st : Byte) : Byte := setNZ out.result (putFlag .C out.carry st)

/-- The new `stat` of BIT: Z from `acc and m`, N and V from bits 7 and 6 of `m` (`46_load_store_logic.md` R259). -/
def statBit (a m : Byte) (st : Byte) : Byte :=
  putFlag .V (m.getLsbD 6) (putFlag .N (m.getLsbD 7) (putFlag .Z (a &&& m == 0) st))

/-- The new `stat` of PLP and RTI from the pulled byte: all eight bits, or all but bits 4 and 5
(`43_stack.md` R204, `45_system.md` R242). -/
def statPulled (p : Params) (v st : Byte) : Byte :=
  if p.pullStatusWholeByte then v else (v &&& 0xCF) ||| (st &&& 0x30)

end Sys2Proof.Machine
end

