-- ==== Sys2Proof/Machine/State.lean ====
section
/-! DEFINITION. The state aggregate of `10_state.md` R20 as plain data, the three fault records of `60_exceptions.md`
R300, and the state after `Reset` (`10_state.md` R36). -/

namespace Sys2Proof.Machine

/-- The reasons a step stops: the fatal faults of `60_exceptions.md` R300, with the information each records. -/
inductive Fault
  /-- Code 1 (R301). Raised by the step when the opcode byte fetched at `addr` is undefined. Safe: the spec's own stop. -/
  | decodeError (opcode : Byte) (addr : Addr)
  /-- Code 2 (R302). Raised by `Fetch` at an address of 65536 or more (an operand byte, or the second pointer byte of JMP
  indirect), and the error result of `Load`. Safe: the spec's own stop. -/
  | memoryBounds (addr : Nat)
  /-- Code 3 (R303). Raised when a handler has no case for its opcode; unreachable with the table of R93. DEDUCED (log
  entry 6; safe). -/
  | internalDispatch (opcode : Byte) (handler : Mnemonic)
deriving DecidableEq, Repr

/-- Forms the model gives no meaning. No arm of `exec` answers with it: every row of the table has its meaning. -/
inductive Refusal
  /-- An instruction with no meaning yet, by its mnemonic. Raised by no instruction. Safe. -/
  | notModelled (mnemonic : String)
deriving DecidableEq, Repr

/-- Memory: the bytes that differ from what an unlisted address reads as (0x00), by rising address. DESIGN CHOICE (log
entry 1; safe). -/
abbrev Memory := List Host.Cell

/-- The whole state of the machine (`10_state.md` R20). -/
structure State where
  /-- The accumulator (R21). -/
  acc : Byte
  /-- Index register X (R22). -/
  ix : Byte
  /-- Index register Y (R22). -/
  iy : Byte
  /-- The stack pointer (R23). -/
  sp : Byte
  /-- The program counter: the address of the opcode about to run (R25). -/
  pc : Addr
  /-- The status register, all eight bits plain storage (R27). -/
  stat : Byte
  /-- The instruction register: the opcode byte of the latest step (R34). -/
  ir : Byte
  /-- The memory array of 65536 bytes (R37), in canonical form (`Memory.wf`). -/
  mem : Memory
  /-- The decoder's answer for `ir` (R35). DEDUCED (log entry 5; safe). -/
  decoded : Option TableEntry
  /-- The recorded fault (R20; `60_exceptions.md` R304, R305). -/
  fault : Option Fault
deriving DecidableEq, Repr

/-- The answer of a step or of an instruction's meaning. -/
abbrev Result := Host.Outcome State Fault Refusal

/-- The state after `Reset`: "all fields zeroed except `sp` initialized to `0xFF`" (`10_state.md` R36). -/
def State.reset : State where
  acc := 0x00
  ix := 0x00
  iy := 0x00
  sp := 0xFF
  pc := 0x0000
  stat := 0x00
  ir := 0x00
  mem := []
  decoded := none
  fault := none

end Sys2Proof.Machine
end

