-- ==== Sys2Proof/Machine/Ops.lean ====
section
/-! DEFINITION. The named operations on registers and memory (`00_scope.md` R5, R15; `20_memory.md`), taking the BRK trap
(`45_system.md` R240, `60_exceptions.md` R311) and the return from it (R242, R312). -/

namespace Sys2Proof.Machine

/-! ### The memory array -/

/-- The byte at `a`: an unlisted address reads 0x00, its content after `Reset` (`10_state.md` R36). -/
def Memory.read : Memory → Nat → Byte
  | [], _ => 0
  | c :: m, a => if c.1 = a then c.2 else Memory.read m a

/-- Memory without an entry for `a`. -/
def Memory.erase : Memory → Nat → Memory
  | [], _ => []
  | c :: m, a => if c.1 = a then Memory.erase m a else c :: Memory.erase m a

/-- Memory with an entry for `a` put before the first higher address. -/
def Memory.insert : Memory → Nat → Byte → Memory
  | [], a, v => [(a, v)]
  | c :: m, a, v => if a < c.1 then (a, v) :: c :: m else c :: Memory.insert m a v

/-- Memory with `v` at `a`; 0x00 removes the entry, so that equal memories are equal lists (`20_memory.md` R53). -/
def Memory.write (m : Memory) (a : Nat) (v : Byte) : Memory :=
  if v = 0 then Memory.erase m a else Memory.insert (Memory.erase m a) a v

/-- The canonical form from address `lo` up: addresses strictly rising and below 65536, no entry 0x00. -/
def Memory.wfFrom (lo : Nat) : Memory → Bool
  | [] => true
  | c :: m => decide (lo ≤ c.1) && decide (c.1 < Config.memSize) && c.2 != 0 && Memory.wfFrom (c.1 + 1) m

/-- The canonical form of memory. -/
def Memory.wf (m : Memory) : Bool := Memory.wfFrom 0 m

/-! ### Register writes (`00_scope.md` R5) -/

/-- `acc <- v`. -/
def State.setAcc (s : State) (v : Byte) : State := { s with acc := v }
/-- `ix <- v`. -/
def State.setIx (s : State) (v : Byte) : State := { s with ix := v }
/-- `iy <- v`. -/
def State.setIy (s : State) (v : Byte) : State := { s with iy := v }
/-- `sp <- v`. -/
def State.setSp (s : State) (v : Byte) : State := { s with sp := v }
/-- `pc <- a`. -/
def State.setPc (s : State) (a : Addr) : State := { s with pc := a }
/-- `stat <- v`. -/
def State.setStat (s : State) (v : Byte) : State := { s with stat := v }
/-- `ir <- v`. -/
def State.setIr (s : State) (v : Byte) : State := { s with ir := v }
/-- `decoded <- e`. -/
def State.setDecoded (s : State) (e : Option TableEntry) : State := { s with decoded := e }
/-- `fault <- f`. -/
def State.setFault (s : State) (f : Option Fault) : State := { s with fault := f }
/-- The memory array replaced. -/
def State.setMem (s : State) (m : Memory) : State := { s with mem := m }

/-- One bit of `stat` (`10_state.md` R27). -/
def State.flag (s : State) (f : Flag) : Bool := getFlag f s.stat

/-- `pc <- (pc + n) mod 65536` (`10_state.md` R26). -/
def State.advance (s : State) (n : Nat) : State := s.setPc (s.pc + BitVec.ofNat 16 n)

/-! ### Memory accesses (`20_memory.md`) -/

/-- `MemRead(a, 1)` (R52). -/
def State.read (s : State) (a : Addr) : Byte := Memory.read s.mem a.toNat

/-- `MemWrite(a, 1, v)` (R53). -/
def State.write (s : State) (a : Addr) (v : Byte) : State := s.setMem (Memory.write s.mem a.toNat v)

/-- `Fetch(a)` at an unreduced address: `MemoryBounds(a)` from 65536 on (R54). -/
def State.fetch (s : State) (a : Nat) : Except Fault Byte :=
  if a < Config.memSize then .ok (Memory.read s.mem a) else .error (.memoryBounds a)

/-- `Read16(a)`: low byte at `a`, high byte at `a + 1` (R56). -/
def State.read16 (s : State) (a : Addr) : Addr := word16 (s.read (a + 1)) (s.read a)

/-- `Read16zp(p)`: the pointer's high byte is in zero page too (R57). -/
def State.read16zp (s : State) (p : Byte) : Addr := word16 (s.read (zext16 (p + 1))) (s.read (zext16 p))

/-! ### The stack -/

/-- The stack address `0x0100 | sp` (`10_state.md` R23). -/
def stackAddr (sp : Byte) : Addr := Config.stackBase ||| zext16 sp

/-- `Push(v)`: write, then decrement (R60). -/
def State.push (s : State) (v : Byte) : State := (s.write (stackAddr s.sp) v).setSp (s.sp - 1)

/-- `Pull()`: increment, then read (R61). -/
def State.pull (s : State) : Byte × State := (s.read (stackAddr (s.sp + 1)), s.setSp (s.sp + 1))

/-- `Pull()` of PLA and PLP: the pulled byte is then cleared (`43_stack.md` R203). -/
def State.pullClearing (p : Params) (s : State) : Byte × State :=
  let (v, t) := s.pull
  (v, if p.pullClearsStackByte then t.write (stackAddr t.sp) 0x00 else t)

/-- `Push` of a 16-bit value, high byte first (R62). -/
def State.pushWord (s : State) (w : Addr) : State := (s.push (highByte w)).push (lowByte w)

/-- Two `Pull`s, low byte first (R62). -/
def State.pullWord (s : State) : Addr × State :=
  let (lo, t) := s.pull
  let (hi, u) := t.pull
  (word16 hi lo, u)

/-! ### The BRK trap and the return from it -/

/-- Taking the trap (`45_system.md` R240): B set in `stat`, the return address `pc + 2` and `stat` pushed, `pc` from the
vector read after the pushes. -/
def State.trapEntry (p : Params) (s : State) : State :=
  let marked := s.setStat (putFlag .B true s.stat)
  let saved := (marked.pushWord (s.pc + 2)).push marked.stat
  let masked := if p.brkSetsI then saved.setStat (putFlag .I true saved.stat) else saved
  masked.setPc (masked.read16 Config.breakVector)

/-- Returning from it (`45_system.md` R242): `stat`, then the low and the high byte of `pc`, with no `+ 1`. -/
def State.trapReturn (p : Params) (s : State) : State :=
  let (v, t) := s.pull
  let (ret, u) := (t.setStat (statPulled p v t.stat)).pullWord
  u.setPc ret

/-! ### Reading an answer -/

/-- The next state of an answer, if it is one. -/
def nextOf : Result → Option State
  | .next s => some s
  | .fault _ => none
  | .refused _ => none

/-- The fault of an answer, if it is one. -/
def faultOf : Result → Option Fault
  | .next _ => none
  | .fault f => some f
  | .refused _ => none

/-- The number the spec gives a fault (`60_exceptions.md` R300). -/
def faultCode : Fault → Nat
  | .decodeError _ _ => 1
  | .memoryBounds _ => 2
  | .internalDispatch _ _ => 3

end Sys2Proof.Machine
end

