-- ==== Sys2Proof/Machine/Operands.lean ====
section
/-! DEFINITION. The unit `addressing_mode_resolver` (`30_encoding.md` R100 to R114): effective addresses and operand
values of every mode. It reads the state and writes nothing; the operand bytes are those the instruction carries. -/

namespace Sys2Proof.Machine

/-- A memory operand: a mode with an effective address, and its operand bytes. -/
inductive MemOperand
  | zp (z : Byte)
  | zpx (z : Byte)
  | zpy (z : Byte)
  | abs (a : Addr)
  | abx (a : Addr)
  | aby (a : Addr)
  | izx (z : Byte)
  | izy (z : Byte)
deriving DecidableEq, Repr

/-- What an instruction reads as its 8-bit operand (R114). -/
inductive Operand
  | acc
  | imm (v : Byte)
  | mem (o : MemOperand)
deriving DecidableEq, Repr

/-- `EA(mode)`: the effective address (R102 to R107, R109, R110). -/
def MemOperand.ea (o : MemOperand) (s : State) : Addr :=
  match o with
  | .zp z => zext16 z
  | .zpx z => zext16 (z + s.ix)
  | .zpy z => zext16 (z + s.iy)
  | .abs a => a
  | .abx a => a + zext16 s.ix
  | .aby a => a + zext16 s.iy
  | .izx z => s.read16zp (z + s.ix)
  | .izy z => s.read16zp z + zext16 s.iy

/-- The length of an instruction with this operand (R82). -/
def MemOperand.length : MemOperand → Nat
  | .zp _ | .zpx _ | .zpy _ | .izx _ | .izy _ => 2
  | .abs _ | .abx _ | .aby _ => 3

/-- `Operand(mode)`: the operand's value (R101, R113, R114). -/
def Operand.value (o : Operand) (s : State) : Byte :=
  match o with
  | .acc => s.acc
  | .imm v => v
  | .mem o => s.read (o.ea s)

/-- The length of an instruction with this operand (R82). -/
def Operand.length : Operand → Nat
  | .acc => 1
  | .imm _ => 2
  | .mem o => o.length

/-- The target of JMP indirect (R108): one dereference; the high byte is fetched at the unreduced `ptr + 1`, or, under
`JMP_INDIRECT_PAGE_WRAP_BUG`, read from the pointer's own page. -/
def State.indirectTarget (p : Params) (ptr : Addr) (s : State) : Except Fault Addr :=
  let lo := s.read ptr
  if p.jmpIndirectPageWrapBug then
    .ok (word16 (s.read ((ptr &&& 0xFF00) ||| zext16 (lowByte ptr + 1))) lo)
  else
    match s.fetch (ptr.toNat + 1) with
    | .ok hi => .ok (word16 hi lo)
    | .error f => .error f

/-- The target of a taken branch: `pc + 2 + offset` (R111). -/
def State.branchTarget (d : Byte) (s : State) : Addr := s.pc + 2 + sext16 d

end Sys2Proof.Machine
end

