-- ==== Sys2Proof/Machine/Arith.lean ====
section
/-! DEFINITION. Arithmetic and compare (`40_arithmetic_compare.md`): ADC, SBC, CMP, CPX, CPY. -/

namespace Sys2Proof.Machine

/-- The shared effect of ADC and SBC on `acc`, `stat` and `pc` (R130, R131); `stat.D` is not read (`10_state.md` R33). -/
def addSub (alu : Byte → Byte → Bool → AluOut) (o : Operand) (s : State) : Result :=
  let out := alu s.acc (o.value s) (s.flag .C)
  .next (((s.setAcc out.result).setStat (statCVZN out s.stat)).advance o.length)

/-- The shared effect of CMP, CPX and CPY: the register `r` against the operand (R132 to R134). -/
def compareWith (r : Byte) (o : Operand) (s : State) : Result :=
  .next ((s.setStat (statCZN (aluCompare r (o.value s)) s.stat)).advance o.length)

/-- R130, ADC IZX, 0x61. -/
def execAdcIzx (z : Byte) (s : State) : Result := addSub aluAdc (.mem (.izx z)) s

/-- R130, ADC ZP, 0x65. -/
def execAdcZp (z : Byte) (s : State) : Result := addSub aluAdc (.mem (.zp z)) s

/-- R130, ADC IMM, 0x69. -/
def execAdcImm (v : Byte) (s : State) : Result := addSub aluAdc (.imm v) s

/-- R130, ADC ABS, 0x6D. -/
def execAdcAbs (a : Addr) (s : State) : Result := addSub aluAdc (.mem (.abs a)) s

/-- R130, ADC IZY, 0x71. -/
def execAdcIzy (z : Byte) (s : State) : Result := addSub aluAdc (.mem (.izy z)) s

/-- R130, ADC ZPX, 0x75. -/
def execAdcZpx (z : Byte) (s : State) : Result := addSub aluAdc (.mem (.zpx z)) s

/-- R130, ADC ABY, 0x79. -/
def execAdcAby (a : Addr) (s : State) : Result := addSub aluAdc (.mem (.aby a)) s

/-- R130, ADC ABX, 0x7D. -/
def execAdcAbx (a : Addr) (s : State) : Result := addSub aluAdc (.mem (.abx a)) s

/-- R131, SBC IZX, 0xE1. -/
def execSbcIzx (z : Byte) (s : State) : Result := addSub aluSbc (.mem (.izx z)) s

/-- R131, SBC ZP, 0xE5. -/
def execSbcZp (z : Byte) (s : State) : Result := addSub aluSbc (.mem (.zp z)) s

/-- R131, SBC IMM, 0xE9. -/
def execSbcImm (v : Byte) (s : State) : Result := addSub aluSbc (.imm v) s

/-- R131, SBC ABS, 0xED. -/
def execSbcAbs (a : Addr) (s : State) : Result := addSub aluSbc (.mem (.abs a)) s

/-- R131, SBC IZY, 0xF1. -/
def execSbcIzy (z : Byte) (s : State) : Result := addSub aluSbc (.mem (.izy z)) s

/-- R131, SBC ZPX, 0xF5. -/
def execSbcZpx (z : Byte) (s : State) : Result := addSub aluSbc (.mem (.zpx z)) s

/-- R131, SBC ABY, 0xF9. -/
def execSbcAby (a : Addr) (s : State) : Result := addSub aluSbc (.mem (.aby a)) s

/-- R131, SBC ABX, 0xFD. -/
def execSbcAbx (a : Addr) (s : State) : Result := addSub aluSbc (.mem (.abx a)) s

/-- R132, CMP IZX, 0xC1. -/
def execCmpIzx (z : Byte) (s : State) : Result := compareWith s.acc (.mem (.izx z)) s

/-- R132, CMP ZP, 0xC5. -/
def execCmpZp (z : Byte) (s : State) : Result := compareWith s.acc (.mem (.zp z)) s

/-- R132, CMP IMM, 0xC9. -/
def execCmpImm (v : Byte) (s : State) : Result := compareWith s.acc (.imm v) s

/-- R132, CMP ABS, 0xCD. -/
def execCmpAbs (a : Addr) (s : State) : Result := compareWith s.acc (.mem (.abs a)) s

/-- R132, CMP IZY, 0xD1. -/
def execCmpIzy (z : Byte) (s : State) : Result := compareWith s.acc (.mem (.izy z)) s

/-- R132, CMP ZPX, 0xD5. -/
def execCmpZpx (z : Byte) (s : State) : Result := compareWith s.acc (.mem (.zpx z)) s

/-- R132, CMP ABY, 0xD9. -/
def execCmpAby (a : Addr) (s : State) : Result := compareWith s.acc (.mem (.aby a)) s

/-- R132, CMP ABX, 0xDD. -/
def execCmpAbx (a : Addr) (s : State) : Result := compareWith s.acc (.mem (.abx a)) s

/-- R133, CPX IMM, 0xE0. -/
def execCpxImm (v : Byte) (s : State) : Result := compareWith s.ix (.imm v) s

/-- R133, CPX ZP, 0xE4. -/
def execCpxZp (z : Byte) (s : State) : Result := compareWith s.ix (.mem (.zp z)) s

/-- R133, CPX ABS, 0xEC. -/
def execCpxAbs (a : Addr) (s : State) : Result := compareWith s.ix (.mem (.abs a)) s

/-- R134, CPY IMM, 0xC0. -/
def execCpyImm (v : Byte) (s : State) : Result := compareWith s.iy (.imm v) s

/-- R134, CPY ZP, 0xC4. -/
def execCpyZp (z : Byte) (s : State) : Result := compareWith s.iy (.mem (.zp z)) s

/-- R134, CPY ABS, 0xCC. -/
def execCpyAbs (a : Addr) (s : State) : Result := compareWith s.iy (.mem (.abs a)) s

end Sys2Proof.Machine
end

