-- ==== Sys2Proof/Machine/Control.lean ====
section
/-! DEFINITION. Control transfer (`42_branch_jump.md`): the eight branches, JMP, JSR, RTS. -/

namespace Sys2Proof.Machine

/-- The common rule of the branches (R170): taken when the flag `f` has the value `want`. -/
def branchOn (f : Flag) (want : Bool) (d : Byte) (s : State) : Result :=
  if s.flag f = want then .next (s.setPc (s.branchTarget d)) else .next (s.advance 2)

/-- R171, BCC REL, 0x90. -/
def execBcc (d : Byte) (s : State) : Result := branchOn .C false d s

/-- R172, BCS REL, 0xB0. -/
def execBcs (d : Byte) (s : State) : Result := branchOn .C true d s

/-- R173, BEQ REL, 0xF0. -/
def execBeq (d : Byte) (s : State) : Result := branchOn .Z true d s

/-- R174, BNE REL, 0xD0. -/
def execBne (d : Byte) (s : State) : Result := branchOn .Z false d s

/-- R175, BMI REL, 0x30. -/
def execBmi (d : Byte) (s : State) : Result := branchOn .N true d s

/-- R176, BPL REL, 0x10. -/
def execBpl (d : Byte) (s : State) : Result := branchOn .N false d s

/-- R177, BVC REL, 0x50. -/
def execBvc (d : Byte) (s : State) : Result := branchOn .V false d s

/-- R178, BVS REL, 0x70. -/
def execBvs (d : Byte) (s : State) : Result := branchOn .V true d s

/-- R180, JMP ABS, 0x4C. -/
def execJmpAbs (a : Addr) (s : State) : Result := .next (s.setPc a)

/-- R181, JMP IND, 0x6C. -/
def execJmpInd (a : Addr) (s : State) : Result :=
  match State.indirectTarget Config.params a s with
  | .ok target => .next (s.setPc target)
  | .error f => .fault f

/-- R182, JSR ABS, 0x20. -/
def execJsr (a : Addr) (s : State) : Result := .next ((s.pushWord (s.pc + 2)).setPc a)

/-- R183, RTS IMP, 0x60. -/
def execRts (s : State) : Result := .next (s.pullWord.2.setPc (s.pullWord.1 + 1))

end Sys2Proof.Machine
end

