-- ==== Sys2Proof/Machine/LoadStoreLogic.lean ====
section
/-! DEFINITION. Loads, stores and logic (`46_load_store_logic.md`): LDA, LDX, LDY, STA, STX, STY, AND, ORA, EOR, BIT. -/

namespace Sys2Proof.Machine

/-- The shared effect of the loads: write the register with `put`, then Z and N (R250 to R252). -/
def loadWith (put : State → Byte → State) (o : Operand) (s : State) : Result :=
  .next (((put s (o.value s)).setStat (setNZ (o.value s) s.stat)).advance o.length)

/-- The shared effect of the stores: one byte at the effective address, no flag (R253 to R255). -/
def storeWith (v : Byte) (o : MemOperand) (s : State) : Result :=
  .next ((s.write (o.ea s) v).advance o.length)

/-- The shared effect of AND, ORA and EOR on `acc`, Z and N (R256 to R258). -/
def logicWith (op : Byte → Byte → Byte) (o : Operand) (s : State) : Result :=
  let r := op s.acc (o.value s)
  .next (((s.setAcc r).setStat (setNZ r s.stat)).advance o.length)

/-- The shared effect of BIT: Z, V and N, nothing else (R259). -/
def bitWith (o : Operand) (s : State) : Result :=
  .next ((s.setStat (statBit s.acc (o.value s) s.stat)).advance o.length)

/-- R250, LDA IZX, 0xA1. -/
def execLdaIzx (z : Byte) (s : State) : Result := loadWith State.setAcc (.mem (.izx z)) s

/-- R250, LDA ZP, 0xA5. -/
def execLdaZp (z : Byte) (s : State) : Result := loadWith State.setAcc (.mem (.zp z)) s

/-- R250, LDA IMM, 0xA9. -/
def execLdaImm (v : Byte) (s : State) : Result := loadWith State.setAcc (.imm v) s

/-- R250, LDA ABS, 0xAD. -/
def execLdaAbs (a : Addr) (s : State) : Result := loadWith State.setAcc (.mem (.abs a)) s

/-- R250, LDA IZY, 0xB1. -/
def execLdaIzy (z : Byte) (s : State) : Result := loadWith State.setAcc (.mem (.izy z)) s

/-- R250, LDA ZPX, 0xB5. -/
def execLdaZpx (z : Byte) (s : State) : Result := loadWith State.setAcc (.mem (.zpx z)) s

/-- R250, LDA ABY, 0xB9. -/
def execLdaAby (a : Addr) (s : State) : Result := loadWith State.setAcc (.mem (.aby a)) s

/-- R250, LDA ABX, 0xBD. -/
def execLdaAbx (a : Addr) (s : State) : Result := loadWith State.setAcc (.mem (.abx a)) s

/-- R251, LDX IMM, 0xA2. -/
def execLdxImm (v : Byte) (s : State) : Result := loadWith State.setIx (.imm v) s

/-- R251, LDX ZP, 0xA6. -/
def execLdxZp (z : Byte) (s : State) : Result := loadWith State.setIx (.mem (.zp z)) s

/-- R251, LDX ABS, 0xAE. -/
def execLdxAbs (a : Addr) (s : State) : Result := loadWith State.setIx (.mem (.abs a)) s

/-- R251, LDX ZPY, 0xB6. -/
def execLdxZpy (z : Byte) (s : State) : Result := loadWith State.setIx (.mem (.zpy z)) s

/-- R251, LDX ABY, 0xBE. -/
def execLdxAby (a : Addr) (s : State) : Result := loadWith State.setIx (.mem (.aby a)) s

/-- R252, LDY IMM, 0xA0. -/
def execLdyImm (v : Byte) (s : State) : Result := loadWith State.setIy (.imm v) s

/-- R252, LDY ZP, 0xA4. -/
def execLdyZp (z : Byte) (s : State) : Result := loadWith State.setIy (.mem (.zp z)) s

/-- R252, LDY ABS, 0xAC. -/
def execLdyAbs (a : Addr) (s : State) : Result := loadWith State.setIy (.mem (.abs a)) s

/-- R252, LDY ZPX, 0xB4. -/
def execLdyZpx (z : Byte) (s : State) : Result := loadWith State.setIy (.mem (.zpx z)) s

/-- R252, LDY ABX, 0xBC. -/
def execLdyAbx (a : Addr) (s : State) : Result := loadWith State.setIy (.mem (.abx a)) s

/-- R253, STA IZX, 0x81. -/
def execStaIzx (z : Byte) (s : State) : Result := storeWith s.acc (.izx z) s

/-- R253, STA ZP, 0x85. -/
def execStaZp (z : Byte) (s : State) : Result := storeWith s.acc (.zp z) s

/-- R253, STA ABS, 0x8D. -/
def execStaAbs (a : Addr) (s : State) : Result := storeWith s.acc (.abs a) s

/-- R253, STA IZY, 0x91. -/
def execStaIzy (z : Byte) (s : State) : Result := storeWith s.acc (.izy z) s

/-- R253, STA ZPX, 0x95. -/
def execStaZpx (z : Byte) (s : State) : Result := storeWith s.acc (.zpx z) s

/-- R253, STA ABY, 0x99. -/
def execStaAby (a : Addr) (s : State) : Result := storeWith s.acc (.aby a) s

/-- R253, STA ABX, 0x9D. -/
def execStaAbx (a : Addr) (s : State) : Result := storeWith s.acc (.abx a) s

/-- R254, STX ZP, 0x86. -/
def execStxZp (z : Byte) (s : State) : Result := storeWith s.ix (.zp z) s

/-- R254, STX ABS, 0x8E. -/
def execStxAbs (a : Addr) (s : State) : Result := storeWith s.ix (.abs a) s

/-- R254, STX ZPY, 0x96. -/
def execStxZpy (z : Byte) (s : State) : Result := storeWith s.ix (.zpy z) s

/-- R255, STY ZP, 0x84. -/
def execStyZp (z : Byte) (s : State) : Result := storeWith s.iy (.zp z) s

/-- R255, STY ABS, 0x8C. -/
def execStyAbs (a : Addr) (s : State) : Result := storeWith s.iy (.abs a) s

/-- R255, STY ZPX, 0x94. -/
def execStyZpx (z : Byte) (s : State) : Result := storeWith s.iy (.zpx z) s

/-- R256, AND IZX, 0x21. -/
def execAndIzx (z : Byte) (s : State) : Result := logicWith (· &&& ·) (.mem (.izx z)) s

/-- R256, AND ZP, 0x25. -/
def execAndZp (z : Byte) (s : State) : Result := logicWith (· &&& ·) (.mem (.zp z)) s

/-- R256, AND IMM, 0x29. -/
def execAndImm (v : Byte) (s : State) : Result := logicWith (· &&& ·) (.imm v) s

/-- R256, AND ABS, 0x2D. -/
def execAndAbs (a : Addr) (s : State) : Result := logicWith (· &&& ·) (.mem (.abs a)) s

/-- R256, AND IZY, 0x31. -/
def execAndIzy (z : Byte) (s : State) : Result := logicWith (· &&& ·) (.mem (.izy z)) s

/-- R256, AND ZPX, 0x35. -/
def execAndZpx (z : Byte) (s : State) : Result := logicWith (· &&& ·) (.mem (.zpx z)) s

/-- R256, AND ABY, 0x39. -/
def execAndAby (a : Addr) (s : State) : Result := logicWith (· &&& ·) (.mem (.aby a)) s

/-- R256, AND ABX, 0x3D. -/
def execAndAbx (a : Addr) (s : State) : Result := logicWith (· &&& ·) (.mem (.abx a)) s

/-- R257, ORA IZX, 0x01. -/
def execOraIzx (z : Byte) (s : State) : Result := logicWith (· ||| ·) (.mem (.izx z)) s

/-- R257, ORA ZP, 0x05. -/
def execOraZp (z : Byte) (s : State) : Result := logicWith (· ||| ·) (.mem (.zp z)) s

/-- R257, ORA IMM, 0x09. -/
def execOraImm (v : Byte) (s : State) : Result := logicWith (· ||| ·) (.imm v) s

/-- R257, ORA ABS, 0x0D. -/
def execOraAbs (a : Addr) (s : State) : Result := logicWith (· ||| ·) (.mem (.abs a)) s

/-- R257, ORA IZY, 0x11. -/
def execOraIzy (z : Byte) (s : State) : Result := logicWith (· ||| ·) (.mem (.izy z)) s

/-- R257, ORA ZPX, 0x15. -/
def execOraZpx (z : Byte) (s : State) : Result := logicWith (· ||| ·) (.mem (.zpx z)) s

/-- R257, ORA ABY, 0x19. -/
def execOraAby (a : Addr) (s : State) : Result := logicWith (· ||| ·) (.mem (.aby a)) s

/-- R257, ORA ABX, 0x1D. -/
def execOraAbx (a : Addr) (s : State) : Result := logicWith (· ||| ·) (.mem (.abx a)) s

/-- R258, EOR IZX, 0x41. -/
def execEorIzx (z : Byte) (s : State) : Result := logicWith (· ^^^ ·) (.mem (.izx z)) s

/-- R258, EOR ZP, 0x45. -/
def execEorZp (z : Byte) (s : State) : Result := logicWith (· ^^^ ·) (.mem (.zp z)) s

/-- R258, EOR IMM, 0x49. -/
def execEorImm (v : Byte) (s : State) : Result := logicWith (· ^^^ ·) (.imm v) s

/-- R258, EOR ABS, 0x4D. -/
def execEorAbs (a : Addr) (s : State) : Result := logicWith (· ^^^ ·) (.mem (.abs a)) s

/-- R258, EOR IZY, 0x51. -/
def execEorIzy (z : Byte) (s : State) : Result := logicWith (· ^^^ ·) (.mem (.izy z)) s

/-- R258, EOR ZPX, 0x55. -/
def execEorZpx (z : Byte) (s : State) : Result := logicWith (· ^^^ ·) (.mem (.zpx z)) s

/-- R258, EOR ABY, 0x59. -/
def execEorAby (a : Addr) (s : State) : Result := logicWith (· ^^^ ·) (.mem (.aby a)) s

/-- R258, EOR ABX, 0x5D. -/
def execEorAbx (a : Addr) (s : State) : Result := logicWith (· ^^^ ·) (.mem (.abx a)) s

/-- R259, BIT ZP, 0x24. -/
def execBitZp (z : Byte) (s : State) : Result := bitWith (.mem (.zp z)) s

/-- R259, BIT ABS, 0x2C. -/
def execBitAbs (a : Addr) (s : State) : Result := bitWith (.mem (.abs a)) s

end Sys2Proof.Machine
end

