-- ==== Sys2Proof/Machine/RegisterFlag.lean ====
section
/-! DEFINITION. Increment, decrement, flag instructions and register transfers (`44_incdec_flags_transfer.md`). -/

namespace Sys2Proof.Machine

/-- A register written with `put`, then Z and N from its new value: INX, INY, DEX, DEY and the transfers but TXS
(R210 to R213, R230 to R234). -/
def registerNZ (put : State → Byte → State) (v : Byte) (s : State) : Result :=
  .next (((put s v).setStat (setNZ v s.stat)).advance 1)

/-- INC and DEC: one read and one write of the effective address, Z, N and `pc` (R214, R215). -/
def bumpMem (op : Byte → Byte) (o : MemOperand) (s : State) : Result :=
  let ea := o.ea s
  let r := op (s.read ea)
  .next (((s.write ea r).setStat (setNZ r s.stat)).advance o.length)

/-- A flag instruction: exactly one bit of `stat` (R220 to R226). -/
def flagWrite (f : Flag) (b : Bool) (s : State) : Result := .next ((s.setStat (putFlag f b s.stat)).advance 1)

/-- R210, INX IMP, 0xE8. -/
def execInx (s : State) : Result := registerNZ State.setIx (aluInc s.ix) s

/-- R211, INY IMP, 0xC8. -/
def execIny (s : State) : Result := registerNZ State.setIy (aluInc s.iy) s

/-- R212, DEX IMP, 0xCA. -/
def execDex (s : State) : Result := registerNZ State.setIx (aluDec s.ix) s

/-- R213, DEY IMP, 0x88. -/
def execDey (s : State) : Result := registerNZ State.setIy (aluDec s.iy) s

/-- R214, INC ZP, 0xE6. -/
def execIncZp (z : Byte) (s : State) : Result := bumpMem aluInc (.zp z) s

/-- R214, INC ABS, 0xEE. -/
def execIncAbs (a : Addr) (s : State) : Result := bumpMem aluInc (.abs a) s

/-- R214, INC ZPX, 0xF6. -/
def execIncZpx (z : Byte) (s : State) : Result := bumpMem aluInc (.zpx z) s

/-- R214, INC ABX, 0xFE. -/
def execIncAbx (a : Addr) (s : State) : Result := bumpMem aluInc (.abx a) s

/-- R215, DEC ZP, 0xC6. -/
def execDecZp (z : Byte) (s : State) : Result := bumpMem aluDec (.zp z) s

/-- R215, DEC ABS, 0xCE. -/
def execDecAbs (a : Addr) (s : State) : Result := bumpMem aluDec (.abs a) s

/-- R215, DEC ZPX, 0xD6. -/
def execDecZpx (z : Byte) (s : State) : Result := bumpMem aluDec (.zpx z) s

/-- R215, DEC ABX, 0xDE. -/
def execDecAbx (a : Addr) (s : State) : Result := bumpMem aluDec (.abx a) s

/-- R220, CLC IMP, 0x18. -/
def execClc (s : State) : Result := flagWrite .C false s

/-- R221, SEC IMP, 0x38. -/
def execSec (s : State) : Result := flagWrite .C true s

/-- R222, CLD IMP, 0xD8. -/
def execCld (s : State) : Result := flagWrite .D false s

/-- R223, SED IMP, 0xF8. -/
def execSed (s : State) : Result := flagWrite .D true s

/-- R224, CLI IMP, 0x58. -/
def execCli (s : State) : Result := flagWrite .I false s

/-- R225, SEI IMP, 0x78. -/
def execSei (s : State) : Result := flagWrite .I true s

/-- R226, CLV IMP, 0xB8. -/
def execClv (s : State) : Result := flagWrite .V false s

/-- R230, TAX IMP, 0xAA. -/
def execTax (s : State) : Result := registerNZ State.setIx s.acc s

/-- R231, TXA IMP, 0x8A. -/
def execTxa (s : State) : Result := registerNZ State.setAcc s.ix s

/-- R232, TAY IMP, 0xA8. -/
def execTay (s : State) : Result := registerNZ State.setIy s.acc s

/-- R233, TYA IMP, 0x98. -/
def execTya (s : State) : Result := registerNZ State.setAcc s.iy s

/-- R234, TSX IMP, 0xBA. -/
def execTsx (s : State) : Result := registerNZ State.setIx s.sp s

/-- R235, TXS IMP, 0x9A. -/
def execTxs (s : State) : Result := .next ((s.setSp s.ix).advance 1)

end Sys2Proof.Machine
end

