-- ==== Sys2Proof/Machine/Shift.lean ====
section
/-! DEFINITION. Shifts and rotates (`41_shift_rotate.md`): ASL, LSR, ROL, ROR. -/

namespace Sys2Proof.Machine

/-- The accumulator target (R154): `acc`, C, Z, N and `pc`. -/
def shiftAcc (op : Byte → Bool → AluOut) (s : State) : Result :=
  let out := op s.acc (s.flag .C)
  .next (((s.setAcc out.result).setStat (statCZN out s.stat)).advance Operand.acc.length)

/-- A memory target (R154): one read and one write of the effective address, C, Z, N and `pc`. -/
def shiftMem (op : Byte → Bool → AluOut) (o : MemOperand) (s : State) : Result :=
  let ea := o.ea s
  let out := op (s.read ea) (s.flag .C)
  .next (((s.write ea out.result).setStat (statCZN out s.stat)).advance o.length)

/-- R150, ASL ZP, 0x06. -/
def execAslZp (z : Byte) (s : State) : Result := shiftMem aluAsl (.zp z) s

/-- R150, ASL ACC, 0x0A. -/
def execAslAcc (s : State) : Result := shiftAcc aluAsl s

/-- R150, ASL ABS, 0x0E. -/
def execAslAbs (a : Addr) (s : State) : Result := shiftMem aluAsl (.abs a) s

/-- R150, ASL ZPX, 0x16. -/
def execAslZpx (z : Byte) (s : State) : Result := shiftMem aluAsl (.zpx z) s

/-- R150, ASL ABX, 0x1E. -/
def execAslAbx (a : Addr) (s : State) : Result := shiftMem aluAsl (.abx a) s

/-- R151, LSR ZP, 0x46. -/
def execLsrZp (z : Byte) (s : State) : Result := shiftMem aluLsr (.zp z) s

/-- R151, LSR ACC, 0x4A. -/
def execLsrAcc (s : State) : Result := shiftAcc aluLsr s

/-- R151, LSR ABS, 0x4E. -/
def execLsrAbs (a : Addr) (s : State) : Result := shiftMem aluLsr (.abs a) s

/-- R151, LSR ZPX, 0x56. -/
def execLsrZpx (z : Byte) (s : State) : Result := shiftMem aluLsr (.zpx z) s

/-- R151, LSR ABX, 0x5E. -/
def execLsrAbx (a : Addr) (s : State) : Result := shiftMem aluLsr (.abx a) s

/-- R152, ROL ZP, 0x26. -/
def execRolZp (z : Byte) (s : State) : Result := shiftMem aluRol (.zp z) s

/-- R152, ROL ACC, 0x2A. -/
def execRolAcc (s : State) : Result := shiftAcc aluRol s

/-- R152, ROL ABS, 0x2E. -/
def execRolAbs (a : Addr) (s : State) : Result := shiftMem aluRol (.abs a) s

/-- R152, ROL ZPX, 0x36. -/
def execRolZpx (z : Byte) (s : State) : Result := shiftMem aluRol (.zpx z) s

/-- R152, ROL ABX, 0x3E. -/
def execRolAbx (a : Addr) (s : State) : Result := shiftMem aluRol (.abx a) s

/-- R153, ROR ZP, 0x66. -/
def execRorZp (z : Byte) (s : State) : Result := shiftMem aluRor (.zp z) s

/-- R153, ROR ACC, 0x6A. -/
def execRorAcc (s : State) : Result := shiftAcc aluRor s

/-- R153, ROR ABS, 0x6E. -/
def execRorAbs (a : Addr) (s : State) : Result := shiftMem aluRor (.abs a) s

/-- R153, ROR ZPX, 0x76. -/
def execRorZpx (z : Byte) (s : State) : Result := shiftMem aluRor (.zpx z) s

/-- R153, ROR ABX, 0x7E. -/
def execRorAbx (a : Addr) (s : State) : Result := shiftMem aluRor (.abx a) s

end Sys2Proof.Machine
end

