-- ==== Sys2Proof/Machine/Stack.lean ====
section
/-! DEFINITION. Stack instructions (`43_stack.md`): PHA, PHP, PLA, PLP. -/

namespace Sys2Proof.Machine

/-- R200, PHA IMP, 0x48. -/
def execPha (s : State) : Result := .next ((s.push s.acc).advance 1)

/-- R201, PHP IMP, 0x08. -/
def execPhp (s : State) : Result := .next ((s.push (putFlag .B true s.stat)).advance 1)

/-- R202, PLA IMP, 0x68. -/
def execPla (s : State) : Result :=
  let (v, t) := State.pullClearing Config.params s
  .next (((t.setAcc v).setStat (setNZ v t.stat)).advance 1)

/-- R204, PLP IMP, 0x28. -/
def execPlp (s : State) : Result :=
  let (v, t) := State.pullClearing Config.params s
  .next ((t.setStat (statPulled Config.params v t.stat)).advance 1)

end Sys2Proof.Machine
end

