-- ==== Sys2Proof/Machine/System.lean ====
section
/-! DEFINITION. System instructions (`45_system.md`): BRK, NOP, RTI. -/

namespace Sys2Proof.Machine

/-- R240, BRK IMP, 0x00. -/
def execBrk (s : State) : Result := .next (State.trapEntry Config.params s)

/-- R241, NOP IMP, 0xEA. -/
def execNop (s : State) : Result := .next (s.advance 1)

/-- R242, RTI IMP, 0x40. -/
def execRti (s : State) : Result := .next (State.trapReturn Config.params s)

end Sys2Proof.Machine
end

