-- ==== Sys2Proof/Machine/Fetch.lean ====
section
/-! DEFINITION. Fetch and decode of the unit `instruction_dispatcher` (`30_encoding.md` R120 to R123): the bytes of the
instruction at `pc`, read with `Fetch`, and the two latches `ir` and `decoded`. -/

namespace Sys2Proof.Machine

/-- Up to `n` bytes from the unreduced address `a` on, as far as `Fetch` answers (`20_memory.md` R54). -/
def State.fetchRun (s : State) : Nat → Nat → List Byte
  | 0, _ => []
  | n + 1, a =>
    match s.fetch a with
    | .ok b => b :: State.fetchRun s n (a + 1)
    | .error _ => []

/-- The bytes the decoder may look at: those of `pc`, `pc + 1`, `pc + 2` that lie inside memory. -/
def State.codeBytes (s : State) : List Byte := s.fetchRun 3 s.pc.toNat

/-- The instruction at `pc`, or the first fault met (`60_exceptions.md` R306): `DecodeError` before any operand byte,
`MemoryBounds` with the address of the first byte that is not there. DEDUCED (log entry 8; safe). -/
def State.fetchDecode (s : State) : Except Fault Instr :=
  match decode s.codeBytes with
  | .ok (i, _) => .ok i
  | .error .noBytes => .error (.memoryBounds s.pc.toNat)
  | .error (.undefinedOpcode op) => .error (.decodeError op s.pc)
  | .error (.truncated _ n) => .error (.memoryBounds (s.pc.toNat + n))
  | .error (.internalDispatch op m) => .error (.internalDispatch op m)

/-- The latches of fetch and decode: `ir <- MemRead(pc, 1)`, `decoded <- Decode(ir)` (R121, R122). -/
def State.latch (s : State) : State :=
  (s.setIr (s.read s.pc)).setDecoded (decodeOpcode (s.read s.pc))

/-- The given bytes stored from the unreduced address `a` on; a byte that would lie past the end of memory is not
stored. -/
def State.storeBytes (s : State) : List Byte → Nat → State
  | [], _ => s
  | b :: bs, a =>
    State.storeBytes (if a < Config.memSize then s.setMem (Memory.write s.mem a b) else s) bs (a + 1)

end Sys2Proof.Machine
end

