-- ==== Sys2Proof/Machine/Step.lean ====
section
/-! DEFINITION. `Step` (`30_encoding.md` R120): fetch, decode, execute as one atomic transition, or one fatal fault. -/

namespace Sys2Proof.Machine

/-- One step. A faulted state has no transition (`60_exceptions.md` R305): the answer is the recorded fault again.
DESIGN CHOICE (log entry 3; safe). -/
def step (s : State) : Host.Outcome State Fault Refusal :=
  match s.fault with
  | some f => .fault f
  | none =>
    match s.fetchDecode with
    | .error f => .fault f
    | .ok i => exec i s.latch

/-- `s` with the instruction of table word `w` stored where `step` fetches its next one: three bytes from `pc` on. It
stands for the `Load` that brings a program in. DEDUCED (log entries 2 and 12; safe). -/
def State.withFetchWord (s : State) (nbits w : Nat) : State := s.storeBytes (tableWordBytes nbits w) s.pc.toNat

end Sys2Proof.Machine
end

