-- ==== Sys2Proof/Machine/HostOps.lean ====
section
/-! DEFINITION. The host's operations between steps (`70_reset_and_hazards.md` R330 to R339) and the end of a run (R343),
with the open `HALT_POLICY` as an argument. They are the block's external interface (`00_scope.md` R11). -/

namespace Sys2Proof.Machine

/-- `Load(bytes, origin)`: the bytes stored, or `MemoryBounds` and nothing written (R335). -/
def State.load (bytes : List Byte) (origin : Addr) (s : State) : Except Fault State :=
  if loadFits bytes.length origin then .ok (s.storeBytes bytes origin.toNat)
  else .error (.memoryBounds (origin.toNat + bytes.length))

/-- `SetEntry(addr)`: the reset vector written, `pc` set from it (R336). -/
def State.setEntry (addr : Addr) (s : State) : State :=
  let t := (s.write Config.resetVector (lowByte addr)).write (Config.resetVector + 1) (highByte addr)
  t.setPc (t.read16 Config.resetVector)

/-- What `Step` leaves in the aggregate: the next state; after a fault the latches and the fault record (`60_exceptions.md`
R304); a faulted state as it is (R305). DEDUCED (log entry 4; safe). -/
def State.afterStep (s : State) : State :=
  match s.fault with
  | some _ => s
  | none =>
    match step s with
    | .next t => t
    | .fault f => s.latch.setFault (some f)
    | .refused _ => s

/-- What `DumpState` shows (R338): the registers, `stat` as the packed byte, `ir`, and all bytes of memory in
address order; not `decoded`. -/
structure Snapshot where
  acc : Byte
  ix : Byte
  iy : Byte
  sp : Byte
  pc : Addr
  stat : Byte
  ir : Byte
  memory : List Byte
deriving DecidableEq, Repr

/-- `DumpState` (R338). -/
def State.dump (s : State) : Snapshot where
  acc := s.acc
  ix := s.ix
  iy := s.iy
  sp := s.sp
  pc := s.pc
  stat := s.stat
  ir := s.ir
  memory := (List.range Config.memSize).map (Memory.read s.mem)

/-- The five operations of the external interface (`00_scope.md` R11). -/
inductive HostOp
  | reset
  | load (bytes : List Byte) (origin : Addr)
  | setEntry (addr : Addr)
  | step
  | dumpState
deriving DecidableEq, Repr

/-- What the host gets back (R339). -/
inductive HostReply
  | done
  | error (f : Fault)
  | state (s : State)
  | snapshot (d : Snapshot)
deriving DecidableEq, Repr

/-- One host operation: the state it leaves and what the host gets back (R339). -/
def perform (op : HostOp) (s : State) : State × HostReply :=
  match op with
  | .reset => (State.reset, .done)
  | .load bytes origin =>
    match s.load bytes origin with
    | .ok t => (t, .done)
    | .error f => (s, .error f)
  | .setEntry addr => (s.setEntry addr, .done)
  | .step =>
    let t := s.afterStep
    match t.fault with
    | none => (t, .state t)
    | some f => (t, .error f)
  | .dumpState => (s, .snapshot s.dump)

/-- How a run stands (R343). -/
inductive RunEnd
  /-- The halting policy held: `s` is the final state. -/
  | halted (s : State)
  /-- A fault was recorded: no final state. -/
  | faulted (s : State)
  /-- Neither, after the steps looked at. -/
  | running (s : State)
deriving DecidableEq, Repr

/-- The run loop of R343 from state `s` after `n` steps, looked at for `k` more steps: the fault is tested first, then
the policy `halt`. `k` bounds what is looked at, not the run (`93_implementation_defined.md` U18). DESIGN CHOICE (log entry 13;
safe). -/
def runUnder (halt : State → Nat → Bool) : Nat → Nat → State → RunEnd
  | 0, n, s => if s.fault.isSome then .faulted s else if halt s n then .halted s else .running s
  | k + 1, n, s =>
    if s.fault.isSome then .faulted s
    else if halt s n then .halted s
    else runUnder halt k (n + 1) s.afterStep

/-- The policy "iteration count" (R343). -/
def haltAfter (count : Nat) (_ : State) (n : Nat) : Bool := n == count

/-- The policy "Break-flag detection" (R343). -/
def haltOnBreak (s : State) (_ : Nat) : Bool := s.flag .B

end Sys2Proof.Machine
end

