-- ==== Sys2Proof/Safety.lean ====
section
/-! DEFINITION. The terms the claims are stated in: the invariant of a run, what a safe step is, the operand a format gives
for its operand bytes, frames, and the lists of the spec that say which instruction writes what. -/

namespace Sys2Proof.Machine

/-! ### Safe runs -/

/-- The invariant every step keeps: memory in canonical form, no fault recorded, and `decoded` the decoder's answer for
`ir` or, before the first step, none (`10_state.md` R34 to R37). -/
def State.Inv (s : State) : Prop :=
  Memory.wf s.mem = true ∧ s.fault = none ∧ (s.decoded = none ∨ s.decoded = decodeOpcode s.ir)

/-- A step is safe: it answers a next state, neither a fault nor a refusal. -/
def State.stepsSafely (s : State) : Prop := ∃ t, step s = .next t

/-- From memory, nothing stops the instruction before its rule runs but an operand byte past the end of memory: where the
bytes from `pc` on, as far as they lie inside memory, are those of `i` and no fault is recorded, the step is the rule of `i`
on the latched state when all of them lie inside, and `MemoryBounds(0x10000)` when one does not (`20_memory.md` R54,
`60_exceptions.md` R302). -/
def runsFromMemory (i : Instr) : Prop :=
  ∀ s : State, s.fault = none →
    (∀ (k : Nat) (h : k < (encode i).length), s.pc.toNat + k < 65536 →
      Memory.read s.mem (s.pc.toNat + k) = (encode i)[k]'h) →
    step s = if s.pc.toNat + i.length ≤ 65536 then exec i { s with ir := i.opcode, decoded := decodeOpcode i.opcode }
      else .fault (.memoryBounds 65536)

/-- The halting policy does not hold at the first `j` states of the run from `s`, whose step count starts at `n`
(`70_reset_and_hazards.md` R343); each of them is reached. -/
def goesOnFor (halt : State → Nat → Bool) (j n : Nat) (s : State) : Prop :=
  ∀ i, i < j → ∃ u, Sys2Proof.core.run i s = .next u ∧ halt u (n + i) = false

/-! ### Operands by format -/

/-- The operand a format gives for its operand bytes (`30_encoding.md` R81): the bytes at `pc + 1` and `pc + 2`. -/
def formatOperand : Mode → List Byte → Option Operand
  | .ACC, [] => some .acc
  | .IMM, [b1] => some (.imm b1)
  | .ZP, [b1] => some (.mem (.zp b1))
  | .ZPX, [b1] => some (.mem (.zpx b1))
  | .ZPY, [b1] => some (.mem (.zpy b1))
  | .ABS, [b1, b2] => some (.mem (.abs (word16 b2 b1)))
  | .ABX, [b1, b2] => some (.mem (.abx (word16 b2 b1)))
  | .ABY, [b1, b2] => some (.mem (.aby (word16 b2 b1)))
  | .IZX, [b1] => some (.mem (.izx b1))
  | .IZY, [b1] => some (.mem (.izy b1))
  | _, _ => none

/-- The operand of an instruction by its format; none for IMP, REL and IND, which have no such operand. -/
def operandOf (i : Instr) : Option Operand := formatOperand i.mode i.operandBytes

/-- The opcodes of a mnemonic with their formats, in opcode order (`30_encoding.md` R93). -/
def opcodesOf (m : Mnemonic) : List (Byte × Mode) :=
  (opcodeTable.filter (fun r => r.2.mnemonic == m)).map (fun r => (r.1, r.2.mode))

/-- The 105 undefined opcode bytes, as R94 lists them. -/
def undefinedOpcodes : List Byte :=
  [0x02, 0x03, 0x04, 0x07, 0x0B, 0x0C, 0x0F] ++
  [0x12, 0x13, 0x14, 0x17, 0x1A, 0x1B, 0x1C, 0x1F] ++
  [0x22, 0x23, 0x27, 0x2B, 0x2F] ++
  [0x32, 0x33, 0x34, 0x37, 0x3A, 0x3B, 0x3C, 0x3F] ++
  [0x42, 0x43, 0x44, 0x47, 0x4B, 0x4F] ++
  [0x52, 0x53, 0x54, 0x57, 0x5A, 0x5B, 0x5C, 0x5F] ++
  [0x62, 0x63, 0x64, 0x67, 0x6B, 0x6F] ++
  [0x72, 0x73, 0x74, 0x77, 0x7A, 0x7B, 0x7C, 0x7F] ++
  [0x80, 0x82, 0x83, 0x87, 0x89, 0x8B, 0x8F] ++
  [0x92, 0x93, 0x97, 0x9B, 0x9C, 0x9E, 0x9F] ++
  [0xA3, 0xA7, 0xAB, 0xAF] ++
  [0xB2, 0xB3, 0xB7, 0xBB, 0xBF] ++
  [0xC2, 0xC3, 0xC7, 0xCB, 0xCF] ++
  [0xD2, 0xD3, 0xD4, 0xD7, 0xDA, 0xDB, 0xDC, 0xDF] ++
  [0xE2, 0xE3, 0xE7, 0xEB, 0xEF] ++
  [0xF2, 0xF3, 0xF4, 0xF7, 0xFA, 0xFB, 0xFC, 0xFF]

/-! ### Frames -/

/-- Every bit of `stat` but the listed ones is unchanged. -/
def keepsFlags (written : List Flag) (s t : State) : Prop := ∀ f, f ∉ written → t.flag f = s.flag f

/-- Every byte of memory but those at the listed addresses reads as before. -/
def keepsBytesExcept (stored : List Addr) (s t : State) : Prop := ∀ a, a ∉ stored → t.read a = s.read a

/-- `pc` has advanced by `n` (mod 65536). -/
def pcAdvances (n : Nat) (s t : State) : Prop := t.pc.toNat = (s.pc.toNat + n) % 65536

/-- Z and N are those of the 8-bit value `v` (`10_state.md` R31). -/
def zeroNegative (v : Nat) (t : State) : Prop := t.flag .Z = decide (v = 0) ∧ t.flag .N = decide (128 ≤ v)

/-- A shift or rotate has put `r` in its target (`41_shift_rotate.md` R154): `acc`, or one byte at the effective address. -/
def targetHolds (o : Operand) (r : Byte) (s t : State) : Prop :=
  match o with
  | .acc => t = { s with acc := r, stat := t.stat, pc := t.pc } ∧ keepsBytesExcept [] s t
  | .mem q =>
    t = { s with mem := t.mem, stat := t.stat, pc := t.pc } ∧ t.read (q.ea s) = r ∧ keepsBytesExcept [q.ea s] s t
  | .imm _ => False

/-- `n` times the instruction rule of `i`. -/
def execTimes (i : Instr) : Nat → State → Result
  | 0, s => .next s
  | n + 1, s =>
    match exec i s with
    | .next t => execTimes i n t
    | .fault f => .fault f
    | .refused r => .refused r

/-! ### Which instruction writes or reads what, as the spec lists it -/

/-- The register a compare reads (`40_arithmetic_compare.md` R132 to R134). -/
def comparedRegister (m : Mnemonic) (s : State) : Option Byte :=
  match m with
  | .CMP => some s.acc
  | .CPX => some s.ix
  | .CPY => some s.iy
  | _ => none

/-- The register a store writes to memory (`46_load_store_logic.md` R253 to R255). -/
def storedRegister (m : Mnemonic) (s : State) : Option Byte :=
  match m with
  | .STA => some s.acc
  | .STX => some s.ix
  | .STY => some s.iy
  | _ => none

/-- The bit a branch tests (`42_branch_jump.md` R171 to R178). -/
def branchFlag : Mnemonic → Option Flag
  | .BCC | .BCS => some .C
  | .BEQ | .BNE => some .Z
  | .BMI | .BPL => some .N
  | .BVC | .BVS => some .V
  | _ => none

/-- The instructions that write a flag (`10_state.md` R29; `BRK_SETS_I` is false). -/
def flagWriters : Flag → List Mnemonic
  | .C => [.ADC, .SBC, .CMP, .CPX, .CPY, .ASL, .LSR, .ROL, .ROR, .CLC, .SEC, .PLP, .RTI]
  | .Z | .N => [.ADC, .SBC, .CMP, .CPX, .CPY, .ASL, .LSR, .ROL, .ROR, .INC, .DEC, .INX, .INY, .DEX, .DEY, .TAX, .TXA,
      .TAY, .TYA, .TSX, .PLA, .LDA, .LDX, .LDY, .AND, .ORA, .EOR, .BIT, .PLP, .RTI]
  | .I => [.CLI, .SEI, .PLP, .RTI]
  | .D => [.CLD, .SED, .PLP, .RTI]
  | .B => [.BRK, .PLP, .RTI]
  | .U => [.PLP, .RTI]
  | .V => [.ADC, .SBC, .BIT, .CLV, .PLP, .RTI]

/-- The mnemonics that write `acc` (`10_state.md` R21, R39): of the shifts, only the accumulator form does. -/
def accWriters : List Mnemonic := [.ADC, .SBC, .AND, .ORA, .EOR, .ASL, .LSR, .ROL, .ROR, .LDA, .PLA, .TXA, .TYA]

/-- The mnemonics that write `ix` (`10_state.md` R22). -/
def ixWriters : List Mnemonic := [.LDX, .TAX, .TSX, .INX, .DEX]

/-- The mnemonics that write `iy` (`10_state.md` R22). -/
def iyWriters : List Mnemonic := [.LDY, .TAY, .INY, .DEY]

/-- The mnemonics that write `sp` (`10_state.md` R23). -/
def spWriters : List Mnemonic := [.PHA, .PHP, .PLA, .PLP, .JSR, .RTS, .BRK, .RTI, .TXS]

/-- The mnemonics that write memory (`10_state.md` R39): of the shifts, only the memory forms do. -/
def memoryWriters : List Mnemonic :=
  [.STA, .STX, .STY, .ASL, .LSR, .ROL, .ROR, .INC, .DEC, .PHA, .PHP, .PLA, .PLP, .JSR, .BRK]

/-- The mnemonics that write memory only through the stack (`20_memory.md` R60, `43_stack.md` R203). -/
def stackStorers : List Mnemonic := [.PHA, .PHP, .PLA, .PLP, .JSR, .BRK]

/-- The mnemonics whose `pc` is not the advance by their length (`10_state.md` R26). -/
def controlTransfers : List Mnemonic :=
  [.BCC, .BCS, .BEQ, .BNE, .BMI, .BPL, .BVC, .BVS, .JMP, .JSR, .RTS, .BRK, .RTI]

end Sys2Proof.Machine
end

