-- ==== Sys2Proof/Certificates/Slice0/Obligations.lean ====
section
/-! DEFINITION. The statements about the machine, from the numbered rules of spec/. Every state and every operand is meant
unless a hypothesis says otherwise. A conclusion `t = { s with … }` is a frame: every field not listed, and where `mem` is not
listed all of memory, is unchanged; `keepsFlags` and `keepsBytesExcept` say it of the bits of `stat` and of the bytes of
memory. -/

open Sys2Proof Sys2Proof.Machine

/-! ### Encoding and decoding -/

/-- Words written out from the "Encodings" lines of the rules, one or more a family, decode to their instructions
(`30_encoding.md` R81, R93; `40_` to `46_`). -/
def Obligations.WrittenWordsDecode : Prop :=
  decode [0x69, 0x80, 0x55] = .ok (.adcImm 0x80, [0x55]) ∧
  decode [0xFD, 0x34, 0x12] = .ok (.sbcAbx 0x1234, []) ∧
  decode [0xC1, 0x20] = .ok (.cmpIzx 0x20, []) ∧
  decode [0x0A, 0x06] = .ok (.aslAcc, [0x06]) ∧
  decode [0x7E, 0xF0, 0x12] = .ok (.rorAbx 0x12F0, []) ∧
  decode [0xF0, 0x05] = .ok (.beq 0x05, []) ∧
  decode [0x6C, 0x20, 0x01] = .ok (.jmpInd 0x0120, []) ∧
  decode [0x20, 0x34, 0x12] = .ok (.jsr 0x1234, []) ∧
  decode [0x28] = .ok (.plp, []) ∧
  decode [0xF6, 0x10] = .ok (.incZpx 0x10, []) ∧
  decode [0xB8] = .ok (.clv, []) ∧
  decode [0x9A] = .ok (.txs, []) ∧
  decode [0x00, 0xEA] = .ok (.brk, [0xEA]) ∧
  decode [0x40] = .ok (.rti, []) ∧
  decode [0xB6, 0xF0] = .ok (.ldxZpy 0xF0, []) ∧
  decode [0x91, 0x50] = .ok (.staIzy 0x50, []) ∧
  decode [0x19, 0x34, 0x12] = .ok (.oraAby 0x1234, []) ∧
  decode [0x2C, 0x34, 0x12] = .ok (.bitAbs 0x1234, [])

/-- Decode and encode agree, for all 151 instructions, in both directions: an encoded instruction decodes to itself whatever
follows it, and bytes that decode to an instruction are its encoding (`30_encoding.md` R80, R81, R93). -/
def Obligations.DecodeEncodeAgree : Prop :=
  (∀ (i : Instr) (rest : List Byte), decode (encode i ++ rest) = .ok (i, rest)) ∧
  (∀ (bs : List Byte) (i : Instr) (rest : List Byte), decode bs = .ok (i, rest) → bs = encode i ++ rest)

/-- `Decode` has an entry for exactly the 151 opcodes: none for the 105 bytes R94 lists, one for every other byte; the table
has no opcode twice (`30_encoding.md` R83, R85, R94). The list of the 105 is the complement the spec derives; the byte
values are the MOS opcode map R93 takes from general knowledge. -/
def Obligations.DefinedOpcodesAreExactlyTheTable : Prop :=
  opcodeTable.length = 151 ∧ undefinedOpcodes.length = 105 ∧ tableWellFormed opcodeTable = true ∧
  (∀ r ∈ opcodeTable, decodeOpcode r.1 = some r.2) ∧
  ∀ op : Byte, decodeOpcode op = none ↔ op ∈ undefinedOpcodes

/-- The length of an instruction is a function of its opcode byte alone: 1, 2 or 3 by format, 1 for BRK; the decoder consumes
exactly that many bytes, and the instruction it reads has the mnemonic, the format and the length of the table entry of its
first byte (`30_encoding.md` R82, R86). That BRK has length 1 is the spec's decision D15. -/
def Obligations.LengthFollowsFromOpcode : Prop :=
  (∀ (op : Byte) (e : TableEntry), decodeOpcode op = some e →
    (e.length = 1 ↔ e.mode ∈ [Mode.IMP, .ACC]) ∧
    (e.length = 2 ↔ e.mode ∈ [Mode.IMM, .ZP, .ZPX, .ZPY, .REL, .IZX, .IZY]) ∧
    (e.length = 3 ↔ e.mode ∈ [Mode.ABS, .ABX, .ABY, .IND])) ∧
  (∃ e, decodeOpcode 0x00 = some e ∧ e.mnemonic = .BRK ∧ e.length = 1) ∧
  (∀ (op : Byte) (bs : List Byte) (i : Instr) (rest : List Byte), decode (op :: bs) = .ok (i, rest) →
    ∃ e, decodeOpcode op = some e ∧ e.mnemonic = i.mnemonic ∧ e.mode = i.mode ∧ e.length = i.length ∧
      1 + bs.length = e.length + rest.length)

/-! ### The step -/

/-- A step runs the decoded instruction (`30_encoding.md` R120 to R123). With a fault recorded it makes no transition. It
latches the byte at `pc` in `ir` and the decoder's answer in `decoded`; with no answer it raises `DecodeError`; else it runs
the rule of the entry's mnemonic with the entry's addressing mode, over the operand bytes that stand at `pc`, on the state
with those two latches written and nothing else changed. Its result is a next state or a fault. That an operand byte past the
end of memory faults is the spec's decision D4; that all operand bytes are read before the rule runs is DEDUCED (log entry
8). -/
def Obligations.StepRunsTheDecodedInstruction : Prop :=
  (∀ s : State, s.fault ≠ none → ∀ t, step s ≠ .next t) ∧
  (∀ s : State, s.fault = none → decodeOpcode (s.read s.pc) = none →
    step s = .fault (.decodeError (s.read s.pc) s.pc)) ∧
  (∀ (i : Instr) (rest : List Byte) (s : State), s.fault = none → decode s.codeBytes = .ok (i, rest) →
    step s = exec i { s with ir := s.read s.pc, decoded := decodeOpcode (s.read s.pc) }) ∧
  (∀ (s : State) (e : TableEntry), s.fault = none → decodeOpcode (s.read s.pc) = some e →
    s.pc.toNat + e.length ≤ 65536 →
    ∃ i, i.mnemonic = e.mnemonic ∧ i.mode = e.mode ∧ (encode i).length = e.length ∧
      (∀ (k : Nat) (h : k < (encode i).length), (encode i)[k]'h = Memory.read s.mem (s.pc.toNat + k)) ∧
      step s = exec i { s with ir := s.read s.pc, decoded := some e }) ∧
  (∀ i : Instr, runsFromMemory i) ∧
  (∀ (s : State) (r : Refusal), step s ≠ .refused r)

/-- `DecodeError` (`60_exceptions.md` R301): a step raises it exactly when the fetched byte is not a defined opcode, with that
byte and the address it was fetched from; `pc` is not advanced, and the byte stays in `ir` (R304). The state a faulting step
leaves is the spec's decision D18, read as `afterStep`: DEDUCED (log entry 4). -/
def Obligations.UndefinedOpcodeFaults : Prop :=
  ∀ s : State, s.fault = none →
    (∀ (op : Byte) (a : Addr), step s = .fault (.decodeError op a) ↔
      decodeOpcode op = none ∧ op = s.read s.pc ∧ a = s.pc) ∧
    (decodeOpcode (s.read s.pc) = none → s.afterStep.ir = s.read s.pc ∧ s.afterStep.pc = s.pc)

/-- When a step faults, and with what: an undefined opcode first; then an operand byte past the end of memory; then JMP
indirect with the pointer 0xFFFF; in every other case the step answers a next state. So `InternalDispatch` and a refusal
never occur (`60_exceptions.md` R301 to R303, R306). That an operand byte past 0xFFFF and the pointer's high byte at 0x10000
fault is the spec's decisions D4 and D6; the order is what R306 derives. -/
def Obligations.StepFaultsExactlyWhenTheSpecSays : Prop :=
  ∀ s : State, s.fault = none →
    match decodeOpcode (s.read s.pc) with
    | none => step s = .fault (.decodeError (s.read s.pc) s.pc)
    | some e =>
      if 65536 < s.pc.toNat + e.length then step s = .fault (.memoryBounds 65536)
      else if e.mnemonic = .JMP ∧ e.mode = .IND ∧ Memory.read s.mem (s.pc.toNat + 1) = 0xFF ∧
          Memory.read s.mem (s.pc.toNat + 2) = 0xFF then
        step s = .fault (.memoryBounds 65536)
      else s.stepsSafely

/-- A fault is precise: after it only `ir`, `decoded` and `fault` differ, and `decoded` is none after a `DecodeError`
(`60_exceptions.md` R304). That nothing else of the step is kept is the spec's decision D18. -/
def Obligations.FaultChangesOnlyLatchesAndRecord : Prop :=
  ∀ (s : State) (f : Fault), s.fault = none → step s = .fault f →
    s.afterStep = { s with ir := s.read s.pc, decoded := decodeOpcode (s.read s.pc), fault := some f } ∧
    (∀ (op : Byte) (a : Addr), f = .decodeError op a → s.afterStep.decoded = none)

/-- A fault is sticky: no step leaves a faulted state, only `Reset` clears the record, the other host operations keep it,
and a failing `Load` records none (`60_exceptions.md` R305). Sticky is the spec's decision D18; that a step from a faulted
state answers the recorded fault again is the model's choice (log entry 3). -/
def Obligations.FaultIsSticky : Prop :=
  (∀ (s : State) (f : Fault), s.fault = some f →
    step s = .fault f ∧ perform .step s = (s, .error f) ∧ (perform .reset s).1 = State.reset ∧
    (∀ addr, (perform (.setEntry addr) s).1.fault = some f) ∧
    (∀ bytes origin, (perform (.load bytes origin) s).1.fault = some f) ∧
    perform .dumpState s = (s, .snapshot s.dump)) ∧
  (∀ (s : State) (bytes : List Byte) (origin : Addr), (perform (.load bytes origin) s).1.fault = s.fault)

/-- Every step keeps the invariant, from every state that has it, not only from reachable ones (`10_state.md` R34 to R37,
`20_memory.md` R50, `60_exceptions.md` R305). The canonical form of memory is the model's own way of holding the 65536
bytes. Log entry 1. -/
def Obligations.StepKeepsInvariant : Prop :=
  ∀ s t : State, s.Inv → step s = .next t → t.Inv

/-- The state after `Reset` has the invariant. The canonical form of memory is the model's choice (log entry 1). -/
def Obligations.ResetMeetsInvariant : Prop := State.reset.Inv

/-- `Reset`, from any state, leaves the values of R36: all zero but `sp`, which is 0xFF (`10_state.md` R36). That memory is
zeroed is the spec's decision D21. -/
def Obligations.ResetValues : Prop :=
  ∀ s : State,
    let r := (perform .reset s).1
    r.acc = 0x00 ∧ r.ix = 0x00 ∧ r.iy = 0x00 ∧ r.sp = 0xFF ∧ r.pc = 0x0000 ∧ r.stat = 0x00 ∧ r.ir = 0x00 ∧
    r.decoded = none ∧ r.fault = none ∧ (∀ a : Addr, r.read a = 0x00) ∧ r.read16 0xFFFC = 0x0000

/-- Every instruction rule completes on every state, JMP indirect alone excepted, which stops exactly on the pointer 0xFFFF;
no rule touches `ir`, `decoded` or `fault` (`60_exceptions.md` R302, `10_state.md` R34). -/
def Obligations.EveryInstructionCompletes : Prop :=
  ∀ (i : Instr) (s : State),
    if i = .jmpInd 0xFFFF then exec i s = .fault (.memoryBounds 65536)
    else ∃ t, exec i s = .next t ∧ t.ir = s.ir ∧ t.decoded = s.decoded ∧ t.fault = s.fault

/-! ### Who writes what -/

/-- A bit of `stat` changes only by an instruction that R29 lists as its writer (`10_state.md` R28, R29). R29 is the spec's
own summary of its rules; BRK is no writer of I by its decision D14. -/
def Obligations.FlagsChangeOnlyByTheirWriters : Prop :=
  ∀ (i : Instr) (s t : State) (f : Flag), exec i s = .next t → i.mnemonic ∉ flagWriters f → t.flag f = s.flag f

/-- The table's `flags_affected` names exactly the writers of R29 (`30_encoding.md` R87). -/
def Obligations.FlagsAffectedNamesTheWriters : Prop :=
  ∀ r ∈ opcodeTable, ∀ f : Flag, f ∈ r.2.flags ↔ r.2.mnemonic ∈ flagWriters f

/-- `acc`, `ix`, `iy`, `sp` and memory change only by the instructions listed as their writers; of the shifts and rotates,
the memory forms leave `acc` alone and the accumulator form leaves memory alone (`10_state.md` R21 to R23, R39). R39 is the
spec's own summary of its rules; PLA and PLP are writers of memory by its decision D11. -/
def Obligations.RegistersAndMemoryChangeOnlyByTheirWriters : Prop :=
  ∀ (i : Instr) (s t : State), exec i s = .next t →
    (i.mnemonic ∉ accWriters → t.acc = s.acc) ∧
    (i.mnemonic ∈ [Mnemonic.ASL, .LSR, .ROL, .ROR] → i.mode ≠ .ACC → t.acc = s.acc) ∧
    (i.mode = .ACC → keepsBytesExcept [] s t) ∧
    (i.mnemonic ∉ ixWriters → t.ix = s.ix) ∧
    (i.mnemonic ∉ iyWriters → t.iy = s.iy) ∧
    (i.mnemonic ∉ spWriters → t.sp = s.sp) ∧
    (i.mnemonic ∉ memoryWriters → keepsBytesExcept [] s t)

/-- Every instruction but the control transfers advances `pc` by its length, mod 65536; a branch goes to `pc + 2` or to `pc
+ 2 + offset` (`10_state.md` R26). The wrap is the spec's decision D5. -/
def Obligations.ProgramCounterAdvancesByLength : Prop :=
  ∀ (i : Instr) (s t : State), exec i s = .next t →
    (i.mnemonic ∉ controlTransfers → pcAdvances i.length s t) ∧
    (∀ d : Byte, i ∈ [Instr.bcc d, .bcs d, .beq d, .bne d, .bmi d, .bpl d, .bvc d, .bvs d] →
      pcAdvances 2 s t ∨ (t.pc.toNat : Int) = ((s.pc.toNat : Int) + 2 + d.toInt) % 65536)

/-- The instructions that store through the stack change no byte outside page 1 (`20_memory.md` R55, R63). -/
def Obligations.StackStoresStayInPageOne : Prop :=
  ∀ (i : Instr) (s t : State) (a : Addr), exec i s = .next t → i.mnemonic ∈ stackStorers →
    a.toNat < 0x0100 ∨ 0x0200 ≤ a.toNat → t.read a = s.read a

/-- `stat.I` and `stat.D` change no behaviour: with any other values of those two bits every instruction gives the same
registers, the same fault, the same other bits of `stat` and the same memory, but for those two bits of the status byte that
PHP and BRK push (`10_state.md` R33). -/
def Obligations.DecimalAndInterruptBitsAreInert : Prop :=
  ∀ (i : Instr) (s : State) (b d : Bool),
    let s' := { s with stat := putFlag .D d (putFlag .I b s.stat) }
    match exec i s with
    | .next t => ∃ t', exec i s' = .next t' ∧
        t'.acc = t.acc ∧ t'.ix = t.ix ∧ t'.iy = t.iy ∧ t'.sp = t.sp ∧ t'.pc = t.pc ∧
        t'.ir = t.ir ∧ t'.decoded = t.decoded ∧ t'.fault = t.fault ∧
        keepsFlags [.I, .D] t t' ∧
        (i.mnemonic ∉ [Mnemonic.PHP, .BRK] → keepsBytesExcept [] t t') ∧
        (∀ (a : Addr) (f : Flag), f ∉ [Flag.I, .D] → getFlag f (t'.read a) = getFlag f (t.read a))
    | .fault f => exec i s' = .fault f
    | .refused _ => False

/-! ### Arithmetic and compare -/

/-- ADC (`40_arithmetic_compare.md` R130): the 8-bit sum with carry, C, V, Z and N, every form; nothing else changes, and D
is not read. From memory only its operand fetch can fault. -/
def Obligations.AdcAddsWithCarry : Prop :=
  opcodesOf .ADC = [(0x61, .IZX), (0x65, .ZP), (0x69, .IMM), (0x6D, .ABS), (0x71, .IZY), (0x75, .ZPX), (0x79, .ABY),
    (0x7D, .ABX)] ∧
  (∀ i : Instr, i.mnemonic = .ADC → runsFromMemory i) ∧
  ∀ (i : Instr) (s : State), i.mnemonic = .ADC →
    ∃ o t, operandOf i = some o ∧ exec i s = .next t ∧
      let m := o.value s
      let sum := s.acc.toNat + m.toNat + (s.flag .C).toNat
      t.acc.toNat = sum % 256 ∧
      t.flag .C = decide (sum > 0xFF) ∧
      t.flag .V = decide (s.acc.msb = m.msb ∧ t.acc.msb ≠ s.acc.msb) ∧
      zeroNegative (sum % 256) t ∧
      keepsFlags [.C, .V, .Z, .N] s t ∧ pcAdvances i.length s t ∧
      t = { s with acc := t.acc, stat := t.stat, pc := t.pc } ∧ keepsBytesExcept [] s t

/-- SBC (`40_arithmetic_compare.md` R131): the low byte of the signed difference with borrow, C, V, Z and N, every form;
nothing else changes; it does what ADC does with the operand `m xor 0xFF`, but for the length. From memory only its operand
fetch can fault. `acc`, Z and N are the MOS definition R131 adopts; the equality with ADC is what R131 derives. -/
def Obligations.SbcSubtractsWithBorrow : Prop :=
  opcodesOf .SBC = [(0xE1, .IZX), (0xE5, .ZP), (0xE9, .IMM), (0xED, .ABS), (0xF1, .IZY), (0xF5, .ZPX), (0xF9, .ABY),
    (0xFD, .ABX)] ∧
  (∀ i : Instr, i.mnemonic = .SBC → runsFromMemory i) ∧
  ∀ (i : Instr) (s : State), i.mnemonic = .SBC →
    ∃ o t, operandOf i = some o ∧ exec i s = .next t ∧
      let m := o.value s
      let diff : Int := s.acc.toNat - m.toNat - (1 - (s.flag .C).toNat)
      (t.acc.toNat : Int) = diff % 256 ∧
      t.flag .C = decide (0 ≤ diff) ∧
      t.flag .V = decide (s.acc.msb ≠ m.msb ∧ s.acc.msb ≠ t.acc.msb) ∧
      zeroNegative t.acc.toNat t ∧
      exec (.adcImm (m ^^^ 0xFF)) s = .next { t with pc := s.pc + 2 } ∧
      keepsFlags [.C, .V, .Z, .N] s t ∧ pcAdvances i.length s t ∧
      t = { s with acc := t.acc, stat := t.stat, pc := t.pc } ∧ keepsBytesExcept [] s t

/-- V after ADC and SBC says that the result, read as two's complement, is wrong (`40_arithmetic_compare.md` R135); for ADC
it is also the bit formula R130 derives. -/
def Obligations.OverflowMeansSignedResultOutOfRange : Prop :=
  ∀ (i : Instr) (o : Operand) (s t : State), operandOf i = some o → exec i s = .next t →
    let m := o.value s
    let c : Int := (s.flag .C).toNat
    let sum := s.acc.toInt + m.toInt + c
    let diff := s.acc.toInt - m.toInt - (1 - c)
    (i.mnemonic = .ADC → t.flag .V = decide (sum < -128 ∨ 127 < sum) ∧
      t.flag .V = decide ((s.acc ^^^ t.acc) &&& (m ^^^ t.acc) &&& 0x80 ≠ 0)) ∧
    (i.mnemonic = .SBC → t.flag .V = decide (diff < -128 ∨ 127 < diff))

/-- The inverse law: SBC with carry-in `1 - C` restores what ADC with carry-in `C` changed; with ADC's own carry-out it does
so exactly when that carry-out is `1 - C` (`40_arithmetic_compare.md` R136). The law is the spec's own derivation. -/
def Obligations.SbcUndoesAdc : Prop :=
  ∀ (m : Byte) (s t : State), exec (.adcImm m) s = .next t →
    (∃ u, exec (.sbcImm m) (t.setStat (putFlag .C (!s.flag .C) t.stat)) = .next u ∧ u.acc = s.acc) ∧
    (∃ u, exec (.sbcImm m) t = .next u ∧ (u.acc = s.acc ↔ t.flag .C = !s.flag .C))

/-- CMP, CPX, CPY (`40_arithmetic_compare.md` R132 to R134): C from the unsigned comparison, Z and N from the wrapped
difference, every form; no register and no other bit changes. From memory only the operand fetch can fault. -/
def Obligations.CompareSetsFlagsOnly : Prop :=
  opcodesOf .CMP = [(0xC1, .IZX), (0xC5, .ZP), (0xC9, .IMM), (0xCD, .ABS), (0xD1, .IZY), (0xD5, .ZPX), (0xD9, .ABY),
    (0xDD, .ABX)] ∧
  opcodesOf .CPX = [(0xE0, .IMM), (0xE4, .ZP), (0xEC, .ABS)] ∧
  opcodesOf .CPY = [(0xC0, .IMM), (0xC4, .ZP), (0xCC, .ABS)] ∧
  (∀ i : Instr, i.mnemonic ∈ [Mnemonic.CMP, .CPX, .CPY] → runsFromMemory i) ∧
  ∀ (i : Instr) (r : Byte) (s : State), comparedRegister i.mnemonic s = some r →
    ∃ o t, operandOf i = some o ∧ exec i s = .next t ∧
      t.flag .C = decide ((o.value s).toNat ≤ r.toNat) ∧
      zeroNegative ((r.toNat + 256 - (o.value s).toNat) % 256) t ∧
      keepsFlags [.C, .Z, .N] s t ∧ pcAdvances i.length s t ∧
      t = { s with stat := t.stat, pc := t.pc } ∧ keepsBytesExcept [] s t

/-! ### Shifts and rotates -/

/-- ASL and ROL (`41_shift_rotate.md` R150, R152, R154): bits 6:0 of the target move up by one, bit 7 goes to C, bit 0
receives 0 or the previous carry. From memory only the operand fetch can fault. -/
def Obligations.AslRolMoveBitsUp : Prop :=
  opcodesOf .ASL = [(0x06, .ZP), (0x0A, .ACC), (0x0E, .ABS), (0x16, .ZPX), (0x1E, .ABX)] ∧
  opcodesOf .ROL = [(0x26, .ZP), (0x2A, .ACC), (0x2E, .ABS), (0x36, .ZPX), (0x3E, .ABX)] ∧
  (∀ i : Instr, i.mnemonic = .ASL ∨ i.mnemonic = .ROL → runsFromMemory i) ∧
  ∀ (i : Instr) (s : State), i.mnemonic = .ASL ∨ i.mnemonic = .ROL →
    ∃ o r t, operandOf i = some o ∧ exec i s = .next t ∧ targetHolds o r s t ∧
      r.getLsbD 0 = (if i.mnemonic = .ROL then s.flag .C else false) ∧
      (∀ k, k < 7 → r.getLsbD (k + 1) = (o.value s).getLsbD k) ∧
      t.flag .C = (o.value s).getLsbD 7 ∧ zeroNegative r.toNat t ∧
      keepsFlags [.C, .Z, .N] s t ∧ pcAdvances i.length s t

/-- LSR and ROR (`41_shift_rotate.md` R151, R153, R154): bits 7:1 of the target move down by one, bit 0 goes to C, bit 7
receives 0 or the previous carry. From memory only the operand fetch can fault. -/
def Obligations.LsrRorMoveBitsDown : Prop :=
  opcodesOf .LSR = [(0x46, .ZP), (0x4A, .ACC), (0x4E, .ABS), (0x56, .ZPX), (0x5E, .ABX)] ∧
  opcodesOf .ROR = [(0x66, .ZP), (0x6A, .ACC), (0x6E, .ABS), (0x76, .ZPX), (0x7E, .ABX)] ∧
  (∀ i : Instr, i.mnemonic = .LSR ∨ i.mnemonic = .ROR → runsFromMemory i) ∧
  ∀ (i : Instr) (s : State), i.mnemonic = .LSR ∨ i.mnemonic = .ROR →
    ∃ o r t, operandOf i = some o ∧ exec i s = .next t ∧ targetHolds o r s t ∧
      r.getLsbD 7 = (if i.mnemonic = .ROR then s.flag .C else false) ∧
      (∀ k, k < 7 → r.getLsbD k = (o.value s).getLsbD (k + 1)) ∧
      t.flag .C = (o.value s).getLsbD 0 ∧ zeroNegative r.toNat t ∧
      keepsFlags [.C, .Z, .N] s t ∧ pcAdvances i.length s t

/-- A rotate is a 9-bit rotation of `C:v`: nine of them restore the byte and C (`41_shift_rotate.md` R152). The spec's own
derivation. -/
def Obligations.NineRotatesRestore : Prop :=
  ∀ s : State,
    (∃ t, execTimes .rolAcc 9 s = .next t ∧ t.acc = s.acc ∧ t.flag .C = s.flag .C) ∧
    (∃ t, execTimes .rorAcc 9 s = .next t ∧ t.acc = s.acc ∧ t.flag .C = s.flag .C)

/-! ### Control transfer -/

/-- The eight branches (`42_branch_jump.md` R170 to R178): `pc + 2 + offset` when the named bit has the named value, else
`pc + 2`; nothing but `pc` changes; at 0xFFFF, and only there, the fetch of the offset faults, taken or not. The fault is
the spec's decision D20; the pairing of condition and bit is the MOS one R171 names. -/
def Obligations.BranchesGoWhereTheirBitSays : Prop :=
  opcodesOf .BCC = [(0x90, .REL)] ∧ opcodesOf .BCS = [(0xB0, .REL)] ∧ opcodesOf .BEQ = [(0xF0, .REL)] ∧
  opcodesOf .BNE = [(0xD0, .REL)] ∧ opcodesOf .BMI = [(0x30, .REL)] ∧ opcodesOf .BPL = [(0x10, .REL)] ∧
  opcodesOf .BVC = [(0x50, .REL)] ∧ opcodesOf .BVS = [(0x70, .REL)] ∧
  (∀ (s : State) (d : Byte) (i : Instr) (f : Flag) (want : Bool),
    (i, f, want) ∈ [(Instr.bcc d, Flag.C, false), (.bcs d, .C, true), (.beq d, .Z, true), (.bne d, .Z, false),
      (.bmi d, .N, true), (.bpl d, .N, false), (.bvc d, .V, false), (.bvs d, .V, true)] →
    ∃ t, exec i s = .next t ∧ t = { s with pc := t.pc } ∧ keepsBytesExcept [] s t ∧
      (t.pc.toNat : Int) = if s.flag f = want then ((s.pc.toNat : Int) + 2 + d.toInt) % 65536
        else ((s.pc.toNat : Int) + 2) % 65536) ∧
  (∀ (i : Instr) (f : Flag), branchFlag i.mnemonic = some f → runsFromMemory i) ∧
  (∀ s : State, s.fault = none → s.pc = 0xFFFF →
    s.read s.pc ∈ [(0x90 : Byte), 0xB0, 0xF0, 0xD0, 0x30, 0x10, 0x50, 0x70] → step s = .fault (.memoryBounds 65536))

/-- A branch depends on its one bit only (`42_branch_jump.md` R179): with that bit the same and the other seven arbitrary it
goes to the same place; with all other bits set and the tested bit clear BCC, BNE, BPL, BVC are taken and BCS, BEQ, BMI, BVS
are not; with every bit set it is the reverse. The spec's own derivation. -/
def Obligations.BranchDependsOnOneBitOnly : Prop :=
  (∀ (i : Instr) (f : Flag) (x : Byte) (s : State), branchFlag i.mnemonic = some f → getFlag f x = s.flag f →
    ∃ t, exec i s = .next t ∧ exec i { s with stat := x } = .next { t with stat := x }) ∧
  (∀ (s : State) (d : Byte),
    let taken := Host.Outcome.next { s with pc := s.branchTarget d }
    let passed := Host.Outcome.next { s with pc := s.pc + 2 }
    (s.stat = 0xFE → exec (.bcc d) s = taken ∧ exec (.bcs d) s = passed) ∧
    (s.stat = 0xFD → exec (.bne d) s = taken ∧ exec (.beq d) s = passed) ∧
    (s.stat = 0x7F → exec (.bpl d) s = taken ∧ exec (.bmi d) s = passed) ∧
    (s.stat = 0xBF → exec (.bvc d) s = taken ∧ exec (.bvs d) s = passed) ∧
    (s.stat = 0xFF → exec (.bcc d) s = passed ∧ exec (.bne d) s = passed ∧ exec (.bpl d) s = passed ∧
      exec (.bvc d) s = passed ∧ exec (.bcs d) s = taken ∧ exec (.beq d) s = taken ∧ exec (.bmi d) s = taken ∧
      exec (.bvs d) s = taken))

/-- JMP (`42_branch_jump.md` R180, R181): the operand, or the 16-bit value stored at the pointer, low byte first and with no
page wrap; the pointer 0xFFFF faults, and an operand byte past the end of memory; nothing but `pc` changes. The absence of
the page wrap is the spec's decision D6. -/
def Obligations.JmpGoesToOperandOrStoredTarget : Prop :=
  opcodesOf .JMP = [(0x4C, .ABS), (0x6C, .IND)] ∧
  (∀ i : Instr, i.mnemonic = .JMP → runsFromMemory i) ∧
  (∀ (a : Addr) (s : State), exec (.jmpAbs a) s = .next { s with pc := a }) ∧
  (∀ (a : Addr) (s : State), a ≠ 0xFFFF → ∃ t, exec (.jmpInd a) s = .next t ∧ t = { s with pc := t.pc } ∧
    keepsBytesExcept [] s t ∧ t.pc.toNat = (s.read (a + 1)).toNat * 256 + (s.read a).toNat) ∧
  (∀ s : State, exec (.jmpInd 0xFFFF) s = .fault (.memoryBounds 0x10000))

/-- JSR (`42_branch_jump.md` R182): `pc + 2` pushed, high byte first, `sp` two lower, `pc` the operand; nothing else. An
operand byte past the end of memory faults before any push. The order of the pushes is the spec's decisions D9 and D10, the
pushed value its choice C1. -/
def Obligations.JsrPushesReturnAddress : Prop :=
  opcodesOf .JSR = [(0x20, .ABS)] ∧
  (∀ i : Instr, i.mnemonic = .JSR → runsFromMemory i) ∧
  ∀ (a : Addr) (s : State), ∃ t, exec (.jsr a) s = .next t ∧
    t.pc = a ∧ t.sp.toNat = (s.sp.toNat + 254) % 256 ∧
    (t.read (stackAddr s.sp)).toNat = (s.pc.toNat + 2) % 65536 / 256 ∧
    (t.read (stackAddr (s.sp - 1))).toNat = (s.pc.toNat + 2) % 256 ∧
    keepsBytesExcept [stackAddr s.sp, stackAddr (s.sp - 1)] s t ∧
    t = { s with sp := t.sp, pc := t.pc, mem := t.mem }

/-- RTS (`42_branch_jump.md` R183): low then high byte pulled, plus 1 mod 65536, `sp` two higher; no byte is written. The
order is the spec's decisions D9 and D10; that the bytes stay is D11. -/
def Obligations.RtsPullsReturnAddress : Prop :=
  opcodesOf .RTS = [(0x60, .IMP)] ∧
  ∀ s : State, ∃ t, exec .rts s = .next t ∧
    t.pc.toNat = ((s.read (stackAddr (s.sp + 2))).toNat * 256 + (s.read (stackAddr (s.sp + 1))).toNat + 1) % 65536 ∧
    t.sp.toNat = (s.sp.toNat + 2) % 256 ∧
    t = { s with sp := t.sp, pc := t.pc } ∧ keepsBytesExcept [] s t

/-- JSR then RTS, with anything in between that keeps `sp` and the two pushed bytes, returns to the JSR's address plus 3 and
restores `sp` (`42_branch_jump.md` R182, R183). It rests on the spec's decisions D9 and D10. -/
def Obligations.RtsReturnsFromJsr : Prop :=
  ∀ (a : Addr) (s t u : State), exec (.jsr a) s = .next t → u.sp = t.sp →
    u.read (stackAddr s.sp) = t.read (stackAddr s.sp) → u.read (stackAddr (s.sp - 1)) = t.read (stackAddr (s.sp - 1)) →
    ∃ w, exec .rts u = .next w ∧ w.pc.toNat = (s.pc.toNat + 3) % 65536 ∧ w.sp = s.sp

/-! ### Stack -/

/-- PHA and PHP (`43_stack.md` R200, R201): one byte at `0x0100 | sp`, `sp` one lower; PHP forces bit 4 in the pushed copy
only; no flag changes. The address is the spec's decision D9; bit 5 as stored is D12. -/
def Obligations.PhaPhpPushOneByte : Prop :=
  opcodesOf .PHA = [(0x48, .IMP)] ∧ opcodesOf .PHP = [(0x08, .IMP)] ∧
  ∀ s : State,
    (∃ t, exec .pha s = .next t ∧ t.read (stackAddr s.sp) = s.acc ∧ t.sp.toNat = (s.sp.toNat + 255) % 256 ∧
      keepsBytesExcept [stackAddr s.sp] s t ∧ pcAdvances 1 s t ∧ t = { s with sp := t.sp, pc := t.pc, mem := t.mem }) ∧
    (∃ t, exec .php s = .next t ∧ t.read (stackAddr s.sp) = s.stat ||| 0x10 ∧ t.sp.toNat = (s.sp.toNat + 255) % 256 ∧
      keepsBytesExcept [stackAddr s.sp] s t ∧ pcAdvances 1 s t ∧ t = { s with sp := t.sp, pc := t.pc, mem := t.mem })

/-- PLA and PLP (`43_stack.md` R202 to R204): the byte at `0x0100 | (sp + 1)` goes to `acc` with Z and N, or to all eight
bits of `stat`; the byte is then cleared; `sp` one higher. The address is the spec's decision D9, the clearing D11, the
whole byte D13. -/
def Obligations.PlaPlpPullAndClear : Prop :=
  opcodesOf .PLA = [(0x68, .IMP)] ∧ opcodesOf .PLP = [(0x28, .IMP)] ∧
  ∀ s : State,
    let a := stackAddr (s.sp + 1)
    (∃ t, exec .pla s = .next t ∧ t.acc = s.read a ∧ zeroNegative (s.read a).toNat t ∧ keepsFlags [.Z, .N] s t ∧
      t.sp.toNat = (s.sp.toNat + 1) % 256 ∧ t.read a = 0x00 ∧ keepsBytesExcept [a] s t ∧ pcAdvances 1 s t ∧
      t = { s with acc := t.acc, sp := t.sp, pc := t.pc, stat := t.stat, mem := t.mem }) ∧
    (∃ t, exec .plp s = .next t ∧ t.stat = s.read a ∧
      t.sp.toNat = (s.sp.toNat + 1) % 256 ∧ t.read a = 0x00 ∧ keepsBytesExcept [a] s t ∧ pcAdvances 1 s t ∧
      t = { s with sp := t.sp, pc := t.pc, stat := t.stat, mem := t.mem })

/-- PHA then PLA restores `acc` and `sp`, sets Z and N from `acc` and leaves 0x00 in the stack byte; PHP then PLP restores
`sp` and leaves `stat` with B set (`43_stack.md` R202, R204). It rests on the spec's decisions D9, D11 and D13. -/
def Obligations.PullUndoesPush : Prop :=
  ∀ s : State,
    (∃ t u, exec .pha s = .next t ∧ exec .pla t = .next u ∧ u.acc = s.acc ∧ u.sp = s.sp ∧ zeroNegative s.acc.toNat u ∧
      u.read (stackAddr s.sp) = 0x00 ∧ keepsBytesExcept [stackAddr s.sp] s u) ∧
    (∃ t u, exec .php s = .next t ∧ exec .plp t = .next u ∧ u.sp = s.sp ∧ u.flag .B = true ∧ keepsFlags [.B] s u)

/-! ### Increment, decrement, flags, transfers -/

/-- INX, INY, DEX, DEY (`44_incdec_flags_transfer.md` R210 to R213): wrap by one, Z and N; nothing else. -/
def Obligations.IncDecRegisterWraps : Prop :=
  opcodesOf .INX = [(0xE8, .IMP)] ∧ opcodesOf .INY = [(0xC8, .IMP)] ∧ opcodesOf .DEX = [(0xCA, .IMP)] ∧
  opcodesOf .DEY = [(0x88, .IMP)] ∧
  ∀ s : State,
    (∃ t, exec .inx s = .next t ∧ t.ix.toNat = (s.ix.toNat + 1) % 256 ∧ zeroNegative t.ix.toNat t ∧
      keepsFlags [.Z, .N] s t ∧ pcAdvances 1 s t ∧ t = { s with ix := t.ix, stat := t.stat, pc := t.pc } ∧
      keepsBytesExcept [] s t) ∧
    (∃ t, exec .iny s = .next t ∧ t.iy.toNat = (s.iy.toNat + 1) % 256 ∧ zeroNegative t.iy.toNat t ∧
      keepsFlags [.Z, .N] s t ∧ pcAdvances 1 s t ∧ t = { s with iy := t.iy, stat := t.stat, pc := t.pc } ∧
      keepsBytesExcept [] s t) ∧
    (∃ t, exec .dex s = .next t ∧ t.ix.toNat = (s.ix.toNat + 255) % 256 ∧ zeroNegative t.ix.toNat t ∧
      keepsFlags [.Z, .N] s t ∧ pcAdvances 1 s t ∧ t = { s with ix := t.ix, stat := t.stat, pc := t.pc } ∧
      keepsBytesExcept [] s t) ∧
    (∃ t, exec .dey s = .next t ∧ t.iy.toNat = (s.iy.toNat + 255) % 256 ∧ zeroNegative t.iy.toNat t ∧
      keepsFlags [.Z, .N] s t ∧ pcAdvances 1 s t ∧ t = { s with iy := t.iy, stat := t.stat, pc := t.pc } ∧
      keepsBytesExcept [] s t)

/-- INC and DEC (`44_incdec_flags_transfer.md` R214, R215): the byte at the effective address wraps by one, Z and N; no
register but `pc` changes, and no other byte. From memory only the operand fetch can fault. -/
def Obligations.IncDecMemoryWraps : Prop :=
  opcodesOf .INC = [(0xE6, .ZP), (0xEE, .ABS), (0xF6, .ZPX), (0xFE, .ABX)] ∧
  opcodesOf .DEC = [(0xC6, .ZP), (0xCE, .ABS), (0xD6, .ZPX), (0xDE, .ABX)] ∧
  (∀ i : Instr, i.mnemonic = .INC ∨ i.mnemonic = .DEC → runsFromMemory i) ∧
  ∀ (i : Instr) (s : State), i.mnemonic = .INC ∨ i.mnemonic = .DEC →
    ∃ q t, operandOf i = some (.mem q) ∧ exec i s = .next t ∧
      (t.read (q.ea s)).toNat = ((s.read (q.ea s)).toNat + (if i.mnemonic = .INC then 1 else 255)) % 256 ∧
      zeroNegative (t.read (q.ea s)).toNat t ∧
      keepsFlags [.Z, .N] s t ∧ keepsBytesExcept [q.ea s] s t ∧ pcAdvances i.length s t ∧
      t = { s with mem := t.mem, stat := t.stat, pc := t.pc }

/-- The flag instructions (`44_incdec_flags_transfer.md` R220 to R226): exactly one bit of `stat`, set or cleared; nothing
else but `pc`. -/
def Obligations.FlagInstructionsWriteOneBit : Prop :=
  opcodesOf .CLC = [(0x18, .IMP)] ∧ opcodesOf .SEC = [(0x38, .IMP)] ∧ opcodesOf .CLD = [(0xD8, .IMP)] ∧
  opcodesOf .SED = [(0xF8, .IMP)] ∧ opcodesOf .CLI = [(0x58, .IMP)] ∧ opcodesOf .SEI = [(0x78, .IMP)] ∧
  opcodesOf .CLV = [(0xB8, .IMP)] ∧
  ∀ (i : Instr) (f : Flag) (b : Bool) (s : State),
    (i, f, b) ∈ [(Instr.clc, Flag.C, false), (.sec, .C, true), (.cld, .D, false), (.sed, .D, true), (.cli, .I, false),
      (.sei, .I, true), (.clv, .V, false)] →
    ∃ t, exec i s = .next t ∧ t.flag f = b ∧ keepsFlags [f] s t ∧ pcAdvances 1 s t ∧
      t = { s with stat := t.stat, pc := t.pc } ∧ keepsBytesExcept [] s t

/-- The transfers (`44_incdec_flags_transfer.md` R230 to R235): one register copied to another; all but TXS update Z and N
from the destination; nothing else but `pc`. -/
def Obligations.TransfersCopyOneRegister : Prop :=
  opcodesOf .TAX = [(0xAA, .IMP)] ∧ opcodesOf .TXA = [(0x8A, .IMP)] ∧ opcodesOf .TAY = [(0xA8, .IMP)] ∧
  opcodesOf .TYA = [(0x98, .IMP)] ∧ opcodesOf .TSX = [(0xBA, .IMP)] ∧ opcodesOf .TXS = [(0x9A, .IMP)] ∧
  ∀ s : State,
    (∃ t, exec .tax s = .next t ∧ zeroNegative s.acc.toNat t ∧ keepsFlags [.Z, .N] s t ∧ pcAdvances 1 s t ∧
      t = { s with ix := s.acc, stat := t.stat, pc := t.pc }) ∧
    (∃ t, exec .txa s = .next t ∧ zeroNegative s.ix.toNat t ∧ keepsFlags [.Z, .N] s t ∧ pcAdvances 1 s t ∧
      t = { s with acc := s.ix, stat := t.stat, pc := t.pc }) ∧
    (∃ t, exec .tay s = .next t ∧ zeroNegative s.acc.toNat t ∧ keepsFlags [.Z, .N] s t ∧ pcAdvances 1 s t ∧
      t = { s with iy := s.acc, stat := t.stat, pc := t.pc }) ∧
    (∃ t, exec .tya s = .next t ∧ zeroNegative s.iy.toNat t ∧ keepsFlags [.Z, .N] s t ∧ pcAdvances 1 s t ∧
      t = { s with acc := s.iy, stat := t.stat, pc := t.pc }) ∧
    (∃ t, exec .tsx s = .next t ∧ zeroNegative s.sp.toNat t ∧ keepsFlags [.Z, .N] s t ∧ pcAdvances 1 s t ∧
      t = { s with ix := s.sp, stat := t.stat, pc := t.pc }) ∧
    (∃ t, exec .txs s = .next t ∧ pcAdvances 1 s t ∧ t = { s with sp := s.ix, pc := t.pc })

/-! ### System -/

/-- BRK (`45_system.md` R240): B set in `stat`, the return address `pc + 2` pushed high byte first, then `stat`; `sp` three
lower; `pc` from the vector, as it stood before the pushes. The order of the pushes is the spec's decisions D9 and D10, I
unchanged D14, `pc + 2` D15. -/
def Obligations.BrkTakesTheTrap : Prop :=
  opcodesOf .BRK = [(0x00, .IMP)] ∧
  ∀ s : State, ∃ t, exec .brk s = .next t ∧
    t.flag .B = true ∧ keepsFlags [.B] s t ∧
    t.pc.toNat = (s.read 0xFFFF).toNat * 256 + (s.read 0xFFFE).toNat ∧
    t.sp.toNat = (s.sp.toNat + 253) % 256 ∧
    (t.read (stackAddr s.sp)).toNat = (s.pc.toNat + 2) % 65536 / 256 ∧
    (t.read (stackAddr (s.sp - 1))).toNat = (s.pc.toNat + 2) % 256 ∧
    t.read (stackAddr (s.sp - 2)) = t.stat ∧
    keepsBytesExcept [stackAddr s.sp, stackAddr (s.sp - 1), stackAddr (s.sp - 2)] s t ∧
    t = { s with sp := t.sp, pc := t.pc, stat := t.stat, mem := t.mem }

/-- NOP (`45_system.md` R241): `pc` advances by 1; nothing else changes. -/
def Obligations.NopOnlyAdvances : Prop :=
  opcodesOf .NOP = [(0xEA, .IMP)] ∧
  ∀ s : State, ∃ t, exec .nop s = .next t ∧ pcAdvances 1 s t ∧ t = { s with pc := t.pc }

/-- RTI (`45_system.md` R242): all eight bits of `stat`, then the low and the high byte of `pc`, pulled, with no plus 1;
`sp` three higher; no byte is written. RTI is the spec's decision D16, with D11 (the bytes stay) and D13 (whole
byte). -/
def Obligations.RtiReturnsFromTrap : Prop :=
  opcodesOf .RTI = [(0x40, .IMP)] ∧
  ∀ s : State, ∃ t, exec .rti s = .next t ∧
    t.stat = s.read (stackAddr (s.sp + 1)) ∧
    t.pc.toNat = (s.read (stackAddr (s.sp + 3))).toNat * 256 + (s.read (stackAddr (s.sp + 2))).toNat ∧
    t.sp.toNat = (s.sp.toNat + 3) % 256 ∧
    t = { s with sp := t.sp, pc := t.pc, stat := t.stat } ∧ keepsBytesExcept [] s t

/-- BRK then RTI, with anything in between that keeps `sp` and the three pushed bytes, resumes at the BRK's `pc + 2` with
the `stat` BRK pushed, B set, and the `sp` from before (`60_exceptions.md` R312). It rests on the spec's decision D16. -/
def Obligations.RtiResumesAfterBrk : Prop :=
  ∀ s t u : State, exec .brk s = .next t → u.sp = t.sp →
    (∀ k : Byte, k.toNat < 3 → u.read (stackAddr (s.sp - k)) = t.read (stackAddr (s.sp - k))) →
    ∃ w, exec .rti u = .next w ∧ w.pc.toNat = (s.pc.toNat + 2) % 65536 ∧ w.sp = s.sp ∧ w.stat = t.stat ∧
      w.flag .B = true

/-! ### Loads, stores, logic -/

/-- LDA, LDX, LDY (`46_load_store_logic.md` R250 to R252): the operand's value, Z and N, every form; nothing else but `pc`.
From memory only the operand fetch can fault. LDX and LDY are the MOS semantics the rules take from general knowledge. -/
def Obligations.LoadsReadTheOperand : Prop :=
  opcodesOf .LDA = [(0xA1, .IZX), (0xA5, .ZP), (0xA9, .IMM), (0xAD, .ABS), (0xB1, .IZY), (0xB5, .ZPX), (0xB9, .ABY),
    (0xBD, .ABX)] ∧
  opcodesOf .LDX = [(0xA2, .IMM), (0xA6, .ZP), (0xAE, .ABS), (0xB6, .ZPY), (0xBE, .ABY)] ∧
  opcodesOf .LDY = [(0xA0, .IMM), (0xA4, .ZP), (0xAC, .ABS), (0xB4, .ZPX), (0xBC, .ABX)] ∧
  (∀ i : Instr, i.mnemonic ∈ [Mnemonic.LDA, .LDX, .LDY] → runsFromMemory i) ∧
  ∀ (i : Instr) (s : State), i.mnemonic ∈ [Mnemonic.LDA, .LDX, .LDY] →
    ∃ o t, operandOf i = some o ∧ exec i s = .next t ∧
      zeroNegative (o.value s).toNat t ∧ keepsFlags [.Z, .N] s t ∧ pcAdvances i.length s t ∧ keepsBytesExcept [] s t ∧
      (i.mnemonic = .LDA → t = { s with acc := o.value s, stat := t.stat, pc := t.pc }) ∧
      (i.mnemonic = .LDX → t = { s with ix := o.value s, stat := t.stat, pc := t.pc }) ∧
      (i.mnemonic = .LDY → t = { s with iy := o.value s, stat := t.stat, pc := t.pc })

/-- STA, STX, STY (`46_load_store_logic.md` R253 to R255): the register's byte at the effective address, every form; no
flag, no other byte and no register but `pc` changes. From memory only the operand fetch can fault. STX and STY are the MOS
semantics the rules take from general knowledge. -/
def Obligations.StoresWriteOneByte : Prop :=
  opcodesOf .STA = [(0x81, .IZX), (0x85, .ZP), (0x8D, .ABS), (0x91, .IZY), (0x95, .ZPX), (0x99, .ABY), (0x9D, .ABX)] ∧
  opcodesOf .STX = [(0x86, .ZP), (0x8E, .ABS), (0x96, .ZPY)] ∧
  opcodesOf .STY = [(0x84, .ZP), (0x8C, .ABS), (0x94, .ZPX)] ∧
  (∀ i : Instr, i.mnemonic ∈ [Mnemonic.STA, .STX, .STY] → runsFromMemory i) ∧
  ∀ (i : Instr) (r : Byte) (s : State), storedRegister i.mnemonic s = some r →
    ∃ q t, operandOf i = some (.mem q) ∧ exec i s = .next t ∧
      t.read (q.ea s) = r ∧ keepsBytesExcept [q.ea s] s t ∧ pcAdvances i.length s t ∧
      t = { s with mem := t.mem, pc := t.pc }

/-- AND, ORA, EOR (`46_load_store_logic.md` R256 to R258): bit by bit into `acc`, Z and N, every form; nothing else but
`pc`. From memory only the operand fetch can fault. The three are the MOS semantics the rules take from
general knowledge. -/
def Obligations.LogicWorksBitByBit : Prop :=
  opcodesOf .AND = [(0x21, .IZX), (0x25, .ZP), (0x29, .IMM), (0x2D, .ABS), (0x31, .IZY), (0x35, .ZPX), (0x39, .ABY),
    (0x3D, .ABX)] ∧
  opcodesOf .ORA = [(0x01, .IZX), (0x05, .ZP), (0x09, .IMM), (0x0D, .ABS), (0x11, .IZY), (0x15, .ZPX), (0x19, .ABY),
    (0x1D, .ABX)] ∧
  opcodesOf .EOR = [(0x41, .IZX), (0x45, .ZP), (0x49, .IMM), (0x4D, .ABS), (0x51, .IZY), (0x55, .ZPX), (0x59, .ABY),
    (0x5D, .ABX)] ∧
  (∀ i : Instr, i.mnemonic ∈ [Mnemonic.AND, .ORA, .EOR] → runsFromMemory i) ∧
  ∀ (i : Instr) (s : State), i.mnemonic ∈ [Mnemonic.AND, .ORA, .EOR] →
    ∃ o t, operandOf i = some o ∧ exec i s = .next t ∧
      (∀ k, k < 8 →
        (i.mnemonic = .AND → t.acc.getLsbD k = (s.acc.getLsbD k && (o.value s).getLsbD k)) ∧
        (i.mnemonic = .ORA → t.acc.getLsbD k = (s.acc.getLsbD k || (o.value s).getLsbD k)) ∧
        (i.mnemonic = .EOR → t.acc.getLsbD k = (s.acc.getLsbD k ^^ (o.value s).getLsbD k))) ∧
      zeroNegative t.acc.toNat t ∧ keepsFlags [.Z, .N] s t ∧ pcAdvances i.length s t ∧
      t = { s with acc := t.acc, stat := t.stat, pc := t.pc } ∧ keepsBytesExcept [] s t

/-- BIT (`46_load_store_logic.md` R259): Z from `acc and m`, N and V from bits 7 and 6 of the operand; nothing else but
`pc`. From memory only the operand fetch can fault. BIT is the MOS semantics the rule takes from general knowledge. -/
def Obligations.BitTestsTheOperand : Prop :=
  opcodesOf .BIT = [(0x24, .ZP), (0x2C, .ABS)] ∧
  (∀ i : Instr, i.mnemonic = .BIT → runsFromMemory i) ∧
  ∀ (i : Instr) (s : State), i.mnemonic = .BIT →
    ∃ o t, operandOf i = some o ∧ exec i s = .next t ∧
      (t.flag .Z = true ↔ ∀ k, k < 8 → ¬ (s.acc.getLsbD k = true ∧ (o.value s).getLsbD k = true)) ∧
      t.flag .N = (o.value s).getLsbD 7 ∧ t.flag .V = (o.value s).getLsbD 6 ∧
      keepsFlags [.Z, .N, .V] s t ∧ pcAdvances i.length s t ∧
      t = { s with stat := t.stat, pc := t.pc } ∧ keepsBytesExcept [] s t

/-! ### Addressing modes -/

/-- Direct and indexed addresses (`30_encoding.md` R102 to R107): zero-page sums wrap at 8 bits, absolute sums at 16. -/
def Obligations.DirectAddressesWrap : Prop :=
  ∀ (s : State) (b1 b2 : Byte),
    ((MemOperand.zp b1).ea s).toNat = b1.toNat ∧
    ((MemOperand.zpx b1).ea s).toNat = (b1.toNat + s.ix.toNat) % 256 ∧
    ((MemOperand.zpy b1).ea s).toNat = (b1.toNat + s.iy.toNat) % 256 ∧
    formatOperand .ABS [b1, b2] = some (.mem (.abs (word16 b2 b1))) ∧
    ((MemOperand.abs (word16 b2 b1)).ea s).toNat = b2.toNat * 256 + b1.toNat ∧
    ((MemOperand.abx (word16 b2 b1)).ea s).toNat = (b2.toNat * 256 + b1.toNat + s.ix.toNat) % 65536 ∧
    ((MemOperand.aby (word16 b2 b1)).ea s).toNat = (b2.toNat * 256 + b1.toNat + s.iy.toNat) % 65536

/-- Pointer addresses (`30_encoding.md` R109, R110; `20_memory.md` R57): the pointer's two bytes both come from zero page,
low byte first, with the index added before or after the fetch. The wrap of the pointer's second byte is the spec's decision
D8. -/
def Obligations.PointerAddressesStayInZeroPage : Prop :=
  ∀ (s : State) (b1 : Byte),
    let p := (b1.toNat + s.ix.toNat) % 256
    ((MemOperand.izx b1).ea s).toNat =
      (Memory.read s.mem ((p + 1) % 256)).toNat * 256 + (Memory.read s.mem p).toNat ∧
    ((MemOperand.izy b1).ea s).toNat =
      ((Memory.read s.mem ((b1.toNat + 1) % 256)).toNat * 256 + (Memory.read s.mem b1.toNat).toNat + s.iy.toNat) % 65536

/-- The operand of an instruction by its format (`30_encoding.md` R81, R101 to R107, R109, R110, R112 to R114): `acc`, the
immediate byte `b1`, or the byte in memory at the effective address of that very format, of the operand bytes `b1` and `b2`
that follow the opcode, low byte first; none for IMP, and none for the jump target and the branch offset of IND and REL.
Every operand has the instruction's length. -/
def Obligations.OperandsFollowFormats : Prop :=
  (∀ i : Instr, i.mode = .ACC → encode i = [i.opcode] ∧ operandOf i = some .acc) ∧
  (∀ i : Instr, i.mode = .IMM → ∃ b1, encode i = [i.opcode, b1] ∧ operandOf i = some (.imm b1)) ∧
  (∀ i : Instr, i.mode = .ZP → ∃ b1, encode i = [i.opcode, b1] ∧ operandOf i = some (.mem (.zp b1))) ∧
  (∀ i : Instr, i.mode = .ZPX → ∃ b1, encode i = [i.opcode, b1] ∧ operandOf i = some (.mem (.zpx b1))) ∧
  (∀ i : Instr, i.mode = .ZPY → ∃ b1, encode i = [i.opcode, b1] ∧ operandOf i = some (.mem (.zpy b1))) ∧
  (∀ i : Instr, i.mode = .IZX → ∃ b1, encode i = [i.opcode, b1] ∧ operandOf i = some (.mem (.izx b1))) ∧
  (∀ i : Instr, i.mode = .IZY → ∃ b1, encode i = [i.opcode, b1] ∧ operandOf i = some (.mem (.izy b1))) ∧
  (∀ i : Instr, i.mode = .ABS → ∃ b1 b2, encode i = [i.opcode, b1, b2] ∧
    operandOf i = some (.mem (.abs (word16 b2 b1)))) ∧
  (∀ i : Instr, i.mode = .ABX → ∃ b1 b2, encode i = [i.opcode, b1, b2] ∧
    operandOf i = some (.mem (.abx (word16 b2 b1)))) ∧
  (∀ i : Instr, i.mode = .ABY → ∃ b1 b2, encode i = [i.opcode, b1, b2] ∧
    operandOf i = some (.mem (.aby (word16 b2 b1)))) ∧
  (∀ i : Instr, operandOf i = none ↔ i.mode ∈ [Mode.IMP, .REL, .IND]) ∧
  (∀ (i : Instr) (o : Operand), operandOf i = some o → o.length = i.length) ∧
  (∀ (s : State) (b1 : Byte) (q : MemOperand), Operand.acc.value s = s.acc ∧ (Operand.imm b1).value s = b1 ∧
    (Operand.mem q).value s = Memory.read s.mem (q.ea s).toNat)

/-! ### Memory and the host's operations -/

/-- The canonical form is canonical: two memories in it that read alike everywhere are the same data. This is the model's
own way of holding the 65536 bytes of `20_memory.md` R50. Log entry 1. -/
def Obligations.CanonicalMemoriesThatReadAlikeAreEqual : Prop :=
  ∀ m n : Memory, Memory.wf m = true → Memory.wf n = true → (∀ a : Addr, Memory.read m a.toNat = Memory.read n a.toNat) → m = n

/-- A store is seen by the very next fetch (`20_memory.md` R69): where a store's effective address is the next `pc`, the
next step fetches the stored byte; and a step always fetches the byte memory holds at `pc`. The spec's own derivation. -/
def Obligations.NextFetchSeesTheStore : Prop :=
  (∀ (i : Instr) (r : Byte) (q : MemOperand) (s t : State), storedRegister i.mnemonic s = some r →
    operandOf i = some (.mem q) → exec i s = .next t → q.ea s = t.pc → t.fault = none → t.afterStep.ir = r) ∧
  (∀ s t : State, step s = .next t → t.ir = s.read s.pc)

/-- `Load` (`70_reset_and_hazards.md` R335): the bytes from `origin` on and nothing else, or the error and no change. All or
nothing is the spec's decision D23. -/
def Obligations.LoadWritesAllOrNothing : Prop :=
  ∀ (bytes : List Byte) (origin : Addr) (s : State),
    if 65536 < origin.toNat + bytes.length then
      perform (.load bytes origin) s = (s, .error (.memoryBounds (origin.toNat + bytes.length)))
    else ∃ t, perform (.load bytes origin) s = (t, .done) ∧ t = { s with mem := t.mem } ∧
      (∀ (k : Nat) (h : k < bytes.length), Memory.read t.mem (origin.toNat + k) = bytes[k]'h) ∧
      (∀ a : Nat, a < origin.toNat ∨ origin.toNat + bytes.length ≤ a → Memory.read t.mem a = Memory.read s.mem a) ∧
      (Memory.wf s.mem = true → Memory.wf t.mem = true)

/-- `SetEntry` (`70_reset_and_hazards.md` R336): the address in the reset vector, low byte first, and in `pc`; nothing else.
The order of the two bytes is the spec's decision D22. -/
def Obligations.SetEntryWritesVectorAndPc : Prop :=
  ∀ (addr : Addr) (s : State), ∃ t, perform (.setEntry addr) s = (t, .done) ∧ t.pc = addr ∧
    (t.read 0xFFFC).toNat = addr.toNat % 256 ∧ (t.read 0xFFFD).toNat = addr.toNat / 256 ∧
    keepsBytesExcept [0xFFFC, 0xFFFD] s t ∧ t = { s with pc := t.pc, mem := t.mem }

/-- `DumpState` (`70_reset_and_hazards.md` R338): the registers, `stat`, `ir` and all 65536 bytes; it changes nothing. That
`ir` is shown is the spec's decision D27. -/
def Obligations.DumpShowsTheWholeState : Prop :=
  ∀ s : State, ∃ d, perform .dumpState s = (s, .snapshot d) ∧
    d.acc = s.acc ∧ d.ix = s.ix ∧ d.iy = s.iy ∧ d.sp = s.sp ∧ d.pc = s.pc ∧ d.stat = s.stat ∧ d.ir = s.ir ∧
    d.memory.length = 65536 ∧ ∀ a : Addr, d.memory[a.toNat]? = some (s.read a)

/-- The end of a run (`70_reset_and_hazards.md` R343), looked at for `k` steps from state `s` and step count `n`. It is
halted in `t` exactly when `s` has no fault and `t` is the first state of the run, at most `k` steps on, for which the policy
holds, with the count of that state; faulted exactly when a fault is recorded in `s`, or a step before the policy holds
raises one; running exactly when `k` steps are done and the policy held at none of the states. Under the policy "iteration
count" a run of `N` steps ends halted exactly where `N` steps lead. Looking at more steps changes no end. The end of a run is
the spec's decision D24; looking at a bounded number of steps is the model's (log entry 13). -/
def Obligations.RunEndIsDetermined : Prop :=
  (∀ (halt : State → Nat → Bool) (k n : Nat) (s t : State), runUnder halt k n s = .halted t ↔
    s.fault = none ∧ ∃ j, j ≤ k ∧ Sys2Proof.core.run j s = .next t ∧ halt t (n + j) = true ∧ goesOnFor halt j n s) ∧
  (∀ (halt : State → Nat → Bool) (k n : Nat) (s t : State), runUnder halt k n s = .faulted t ↔
    (s.fault ≠ none ∧ t = s) ∨
    (s.fault = none ∧ ∃ j u f, j < k ∧ Sys2Proof.core.run j s = .next u ∧ step u = .fault f ∧ t = u.afterStep ∧
      goesOnFor halt (j + 1) n s)) ∧
  (∀ (halt : State → Nat → Bool) (k n : Nat) (s t : State), runUnder halt k n s = .running t ↔
    s.fault = none ∧ Sys2Proof.core.run k s = .next t ∧ goesOnFor halt (k + 1) n s) ∧
  (∀ (N : Nat) (s t : State), s.fault = none →
    (runUnder (haltAfter N) N 0 s = .halted t ↔ Sys2Proof.core.run N s = .next t)) ∧
  (∀ (halt : State → Nat → Bool) (k j n : Nat) (s t : State),
    (runUnder halt k n s = .halted t → t.fault = none ∧ runUnder halt (k + j) n s = .halted t) ∧
    (runUnder halt k n s = .faulted t → t.fault ≠ none ∧ runUnder halt (k + j) n s = .faulted t))

/-- The other reading of each parameter (`00_scope.md` R12): the page-wrap of JMP indirect, which never faults; BRK setting
I; pulls that leave the byte; a pulled status that leaves bits 4 and 5. The readings are those the spec's decisions D6, D11,
D13 and D14 leave. -/
def Obligations.OtherReadingsOfTheParameters : Prop :=
  ∀ (p : Params) (s : State),
    (p.jmpIndirectPageWrapBug = true → ∀ a : Addr, ∃ target, State.indirectTarget p a s = .ok target ∧
      target.toNat = (Memory.read s.mem (a.toNat / 256 * 256 + (a.toNat + 1) % 256)).toNat * 256 + (s.read a).toNat) ∧
    ((State.trapEntry p s).flag .I = (p.brkSetsI || s.flag .I)) ∧
    (p.pullClearsStackByte = false → (State.pullClearing p s).2 = { s with sp := s.sp + 1 }) ∧
    (p.pullStatusWholeByte = false → ∀ (v : Byte) (f : Flag),
      getFlag f (statPulled p v s.stat) = if f = .B ∨ f = .U then s.flag f else getFlag f v)

/-- A machine that runs into unloaded memory executes BRK for ever (`45_system.md` R240, corner cases): where the byte at
0x0000 and the vector are 0x00 and `pc` is 0x0000, every number of steps answers a next state with `pc` 0x0000 and `sp`
three lower a step. The spec's own derivation. -/
def Obligations.UnloadedMemoryRunsBrkForEver : Prop :=
  ∀ (k : Nat) (s : State), s.fault = none → s.pc = 0x0000 → s.read 0x0000 = 0x00 → s.read 0xFFFE = 0x00 →
    s.read 0xFFFF = 0x00 →
    ∃ t, Sys2Proof.core.run k s = .next t ∧ t.pc = 0x0000 ∧ t.fault = none ∧
      (t.sp.toNat : Int) = ((s.sp.toNat : Int) - 3 * k) % 256 ∧ (0 < k → t.flag .B = true ∧ t.ir = 0x00)
end

