-- ==== Sys2Proof/Laws/State.lean ====
section
/-! SUPPORT. One lemma per field per register write, all true by rfl, so that no proof unfolds a record update. -/

namespace Sys2Proof.Machine

@[simp] theorem setAcc_acc (s : State) (v : Byte) : (s.setAcc v).acc = v := rfl
@[simp] theorem setAcc_ix (s : State) (v : Byte) : (s.setAcc v).ix = s.ix := rfl
@[simp] theorem setAcc_iy (s : State) (v : Byte) : (s.setAcc v).iy = s.iy := rfl
@[simp] theorem setAcc_sp (s : State) (v : Byte) : (s.setAcc v).sp = s.sp := rfl
@[simp] theorem setAcc_pc (s : State) (v : Byte) : (s.setAcc v).pc = s.pc := rfl
@[simp] theorem setAcc_stat (s : State) (v : Byte) : (s.setAcc v).stat = s.stat := rfl
@[simp] theorem setAcc_ir (s : State) (v : Byte) : (s.setAcc v).ir = s.ir := rfl
@[simp] theorem setAcc_mem (s : State) (v : Byte) : (s.setAcc v).mem = s.mem := rfl
@[simp] theorem setAcc_decoded (s : State) (v : Byte) : (s.setAcc v).decoded = s.decoded := rfl
@[simp] theorem setAcc_fault (s : State) (v : Byte) : (s.setAcc v).fault = s.fault := rfl

@[simp] theorem setIx_acc (s : State) (v : Byte) : (s.setIx v).acc = s.acc := rfl
@[simp] theorem setIx_ix (s : State) (v : Byte) : (s.setIx v).ix = v := rfl
@[simp] theorem setIx_iy (s : State) (v : Byte) : (s.setIx v).iy = s.iy := rfl
@[simp] theorem setIx_sp (s : State) (v : Byte) : (s.setIx v).sp = s.sp := rfl
@[simp] theorem setIx_pc (s : State) (v : Byte) : (s.setIx v).pc = s.pc := rfl
@[simp] theorem setIx_stat (s : State) (v : Byte) : (s.setIx v).stat = s.stat := rfl
@[simp] theorem setIx_ir (s : State) (v : Byte) : (s.setIx v).ir = s.ir := rfl
@[simp] theorem setIx_mem (s : State) (v : Byte) : (s.setIx v).mem = s.mem := rfl
@[simp] theorem setIx_decoded (s : State) (v : Byte) : (s.setIx v).decoded = s.decoded := rfl
@[simp] theorem setIx_fault (s : State) (v : Byte) : (s.setIx v).fault = s.fault := rfl

@[simp] theorem setIy_acc (s : State) (v : Byte) : (s.setIy v).acc = s.acc := rfl
@[simp] theorem setIy_ix (s : State) (v : Byte) : (s.setIy v).ix = s.ix := rfl
@[simp] theorem setIy_iy (s : State) (v : Byte) : (s.setIy v).iy = v := rfl
@[simp] theorem setIy_sp (s : State) (v : Byte) : (s.setIy v).sp = s.sp := rfl
@[simp] theorem setIy_pc (s : State) (v : Byte) : (s.setIy v).pc = s.pc := rfl
@[simp] theorem setIy_stat (s : State) (v : Byte) : (s.setIy v).stat = s.stat := rfl
@[simp] theorem setIy_ir (s : State) (v : Byte) : (s.setIy v).ir = s.ir := rfl
@[simp] theorem setIy_mem (s : State) (v : Byte) : (s.setIy v).mem = s.mem := rfl
@[simp] theorem setIy_decoded (s : State) (v : Byte) : (s.setIy v).decoded = s.decoded := rfl
@[simp] theorem setIy_fault (s : State) (v : Byte) : (s.setIy v).fault = s.fault := rfl

@[simp] theorem setSp_acc (s : State) (v : Byte) : (s.setSp v).acc = s.acc := rfl
@[simp] theorem setSp_ix (s : State) (v : Byte) : (s.setSp v).ix = s.ix := rfl
@[simp] theorem setSp_iy (s : State) (v : Byte) : (s.setSp v).iy = s.iy := rfl
@[simp] theorem setSp_sp (s : State) (v : Byte) : (s.setSp v).sp = v := rfl
@[simp] theorem setSp_pc (s : State) (v : Byte) : (s.setSp v).pc = s.pc := rfl
@[simp] theorem setSp_stat (s : State) (v : Byte) : (s.setSp v).stat = s.stat := rfl
@[simp] theorem setSp_ir (s : State) (v : Byte) : (s.setSp v).ir = s.ir := rfl
@[simp] theorem setSp_mem (s : State) (v : Byte) : (s.setSp v).mem = s.mem := rfl
@[simp] theorem setSp_decoded (s : State) (v : Byte) : (s.setSp v).decoded = s.decoded := rfl
@[simp] theorem setSp_fault (s : State) (v : Byte) : (s.setSp v).fault = s.fault := rfl

@[simp] theorem setPc_acc (s : State) (v : Addr) : (s.setPc v).acc = s.acc := rfl
@[simp] theorem setPc_ix (s : State) (v : Addr) : (s.setPc v).ix = s.ix := rfl
@[simp] theorem setPc_iy (s : State) (v : Addr) : (s.setPc v).iy = s.iy := rfl
@[simp] theorem setPc_sp (s : State) (v : Addr) : (s.setPc v).sp = s.sp := rfl
@[simp] theorem setPc_pc (s : State) (v : Addr) : (s.setPc v).pc = v := rfl
@[simp] theorem setPc_stat (s : State) (v : Addr) : (s.setPc v).stat = s.stat := rfl
@[simp] theorem setPc_ir (s : State) (v : Addr) : (s.setPc v).ir = s.ir := rfl
@[simp] theorem setPc_mem (s : State) (v : Addr) : (s.setPc v).mem = s.mem := rfl
@[simp] theorem setPc_decoded (s : State) (v : Addr) : (s.setPc v).decoded = s.decoded := rfl
@[simp] theorem setPc_fault (s : State) (v : Addr) : (s.setPc v).fault = s.fault := rfl

@[simp] theorem setStat_acc (s : State) (v : Byte) : (s.setStat v).acc = s.acc := rfl
@[simp] theorem setStat_ix (s : State) (v : Byte) : (s.setStat v).ix = s.ix := rfl
@[simp] theorem setStat_iy (s : State) (v : Byte) : (s.setStat v).iy = s.iy := rfl
@[simp] theorem setStat_sp (s : State) (v : Byte) : (s.setStat v).sp = s.sp := rfl
@[simp] theorem setStat_pc (s : State) (v : Byte) : (s.setStat v).pc = s.pc := rfl
@[simp] theorem setStat_stat (s : State) (v : Byte) : (s.setStat v).stat = v := rfl
@[simp] theorem setStat_ir (s : State) (v : Byte) : (s.setStat v).ir = s.ir := rfl
@[simp] theorem setStat_mem (s : State) (v : Byte) : (s.setStat v).mem = s.mem := rfl
@[simp] theorem setStat_decoded (s : State) (v : Byte) : (s.setStat v).decoded = s.decoded := rfl
@[simp] theorem setStat_fault (s : State) (v : Byte) : (s.setStat v).fault = s.fault := rfl

@[simp] theorem setIr_acc (s : State) (v : Byte) : (s.setIr v).acc = s.acc := rfl
@[simp] theorem setIr_ix (s : State) (v : Byte) : (s.setIr v).ix = s.ix := rfl
@[simp] theorem setIr_iy (s : State) (v : Byte) : (s.setIr v).iy = s.iy := rfl
@[simp] theorem setIr_sp (s : State) (v : Byte) : (s.setIr v).sp = s.sp := rfl
@[simp] theorem setIr_pc (s : State) (v : Byte) : (s.setIr v).pc = s.pc := rfl
@[simp] theorem setIr_stat (s : State) (v : Byte) : (s.setIr v).stat = s.stat := rfl
@[simp] theorem setIr_ir (s : State) (v : Byte) : (s.setIr v).ir = v := rfl
@[simp] theorem setIr_mem (s : State) (v : Byte) : (s.setIr v).mem = s.mem := rfl
@[simp] theorem setIr_decoded (s : State) (v : Byte) : (s.setIr v).decoded = s.decoded := rfl
@[simp] theorem setIr_fault (s : State) (v : Byte) : (s.setIr v).fault = s.fault := rfl

@[simp] theorem setMem_acc (s : State) (v : Memory) : (s.setMem v).acc = s.acc := rfl
@[simp] theorem setMem_ix (s : State) (v : Memory) : (s.setMem v).ix = s.ix := rfl
@[simp] theorem setMem_iy (s : State) (v : Memory) : (s.setMem v).iy = s.iy := rfl
@[simp] theorem setMem_sp (s : State) (v : Memory) : (s.setMem v).sp = s.sp := rfl
@[simp] theorem setMem_pc (s : State) (v : Memory) : (s.setMem v).pc = s.pc := rfl
@[simp] theorem setMem_stat (s : State) (v : Memory) : (s.setMem v).stat = s.stat := rfl
@[simp] theorem setMem_ir (s : State) (v : Memory) : (s.setMem v).ir = s.ir := rfl
@[simp] theorem setMem_mem (s : State) (v : Memory) : (s.setMem v).mem = v := rfl
@[simp] theorem setMem_decoded (s : State) (v : Memory) : (s.setMem v).decoded = s.decoded := rfl
@[simp] theorem setMem_fault (s : State) (v : Memory) : (s.setMem v).fault = s.fault := rfl

@[simp] theorem setDecoded_acc (s : State) (v : Option TableEntry) : (s.setDecoded v).acc = s.acc := rfl
@[simp] theorem setDecoded_ix (s : State) (v : Option TableEntry) : (s.setDecoded v).ix = s.ix := rfl
@[simp] theorem setDecoded_iy (s : State) (v : Option TableEntry) : (s.setDecoded v).iy = s.iy := rfl
@[simp] theorem setDecoded_sp (s : State) (v : Option TableEntry) : (s.setDecoded v).sp = s.sp := rfl
@[simp] theorem setDecoded_pc (s : State) (v : Option TableEntry) : (s.setDecoded v).pc = s.pc := rfl
@[simp] theorem setDecoded_stat (s : State) (v : Option TableEntry) : (s.setDecoded v).stat = s.stat := rfl
@[simp] theorem setDecoded_ir (s : State) (v : Option TableEntry) : (s.setDecoded v).ir = s.ir := rfl
@[simp] theorem setDecoded_mem (s : State) (v : Option TableEntry) : (s.setDecoded v).mem = s.mem := rfl
@[simp] theorem setDecoded_decoded (s : State) (v : Option TableEntry) : (s.setDecoded v).decoded = v := rfl
@[simp] theorem setDecoded_fault (s : State) (v : Option TableEntry) : (s.setDecoded v).fault = s.fault := rfl

@[simp] theorem setFault_acc (s : State) (v : Option Fault) : (s.setFault v).acc = s.acc := rfl
@[simp] theorem setFault_ix (s : State) (v : Option Fault) : (s.setFault v).ix = s.ix := rfl
@[simp] theorem setFault_iy (s : State) (v : Option Fault) : (s.setFault v).iy = s.iy := rfl
@[simp] theorem setFault_sp (s : State) (v : Option Fault) : (s.setFault v).sp = s.sp := rfl
@[simp] theorem setFault_pc (s : State) (v : Option Fault) : (s.setFault v).pc = s.pc := rfl
@[simp] theorem setFault_stat (s : State) (v : Option Fault) : (s.setFault v).stat = s.stat := rfl
@[simp] theorem setFault_ir (s : State) (v : Option Fault) : (s.setFault v).ir = s.ir := rfl
@[simp] theorem setFault_mem (s : State) (v : Option Fault) : (s.setFault v).mem = s.mem := rfl
@[simp] theorem setFault_decoded (s : State) (v : Option Fault) : (s.setFault v).decoded = s.decoded := rfl
@[simp] theorem setFault_fault (s : State) (v : Option Fault) : (s.setFault v).fault = v := rfl

@[simp] theorem setAcc_read (s : State) (v : Byte) (a : Addr) : (s.setAcc v).read a = s.read a := rfl
@[simp] theorem setAcc_flag (s : State) (v : Byte) (f : Flag) : (s.setAcc v).flag f = s.flag f := rfl
@[simp] theorem setIx_read (s : State) (v : Byte) (a : Addr) : (s.setIx v).read a = s.read a := rfl
@[simp] theorem setIx_flag (s : State) (v : Byte) (f : Flag) : (s.setIx v).flag f = s.flag f := rfl
@[simp] theorem setIy_read (s : State) (v : Byte) (a : Addr) : (s.setIy v).read a = s.read a := rfl
@[simp] theorem setIy_flag (s : State) (v : Byte) (f : Flag) : (s.setIy v).flag f = s.flag f := rfl
@[simp] theorem setSp_read (s : State) (v : Byte) (a : Addr) : (s.setSp v).read a = s.read a := rfl
@[simp] theorem setSp_flag (s : State) (v : Byte) (f : Flag) : (s.setSp v).flag f = s.flag f := rfl
@[simp] theorem setPc_read (s : State) (v : Addr) (a : Addr) : (s.setPc v).read a = s.read a := rfl
@[simp] theorem setPc_flag (s : State) (v : Addr) (f : Flag) : (s.setPc v).flag f = s.flag f := rfl
@[simp] theorem setStat_read (s : State) (v : Byte) (a : Addr) : (s.setStat v).read a = s.read a := rfl
@[simp] theorem setStat_flag (s : State) (v : Byte) (f : Flag) : (s.setStat v).flag f = getFlag f v := rfl
@[simp] theorem setIr_read (s : State) (v : Byte) (a : Addr) : (s.setIr v).read a = s.read a := rfl
@[simp] theorem setIr_flag (s : State) (v : Byte) (f : Flag) : (s.setIr v).flag f = s.flag f := rfl
@[simp] theorem setMem_read (s : State) (v : Memory) (a : Addr) : (s.setMem v).read a = Memory.read v a.toNat := rfl
@[simp] theorem setMem_flag (s : State) (v : Memory) (f : Flag) : (s.setMem v).flag f = s.flag f := rfl
@[simp] theorem setDecoded_read (s : State) (v : Option TableEntry) (a : Addr) : (s.setDecoded v).read a = s.read a := rfl
@[simp] theorem setDecoded_flag (s : State) (v : Option TableEntry) (f : Flag) : (s.setDecoded v).flag f = s.flag f := rfl
@[simp] theorem setFault_read (s : State) (v : Option Fault) (a : Addr) : (s.setFault v).read a = s.read a := rfl
@[simp] theorem setFault_flag (s : State) (v : Option Fault) (f : Flag) : (s.setFault v).flag f = s.flag f := rfl

@[simp] theorem advance_acc (s : State) (n : Nat) : (s.advance n).acc = s.acc := rfl
@[simp] theorem advance_ix (s : State) (n : Nat) : (s.advance n).ix = s.ix := rfl
@[simp] theorem advance_iy (s : State) (n : Nat) : (s.advance n).iy = s.iy := rfl
@[simp] theorem advance_sp (s : State) (n : Nat) : (s.advance n).sp = s.sp := rfl
@[simp] theorem advance_pc (s : State) (n : Nat) : (s.advance n).pc = s.pc + BitVec.ofNat 16 n := rfl
@[simp] theorem advance_stat (s : State) (n : Nat) : (s.advance n).stat = s.stat := rfl
@[simp] theorem advance_ir (s : State) (n : Nat) : (s.advance n).ir = s.ir := rfl
@[simp] theorem advance_mem (s : State) (n : Nat) : (s.advance n).mem = s.mem := rfl
@[simp] theorem advance_decoded (s : State) (n : Nat) : (s.advance n).decoded = s.decoded := rfl
@[simp] theorem advance_fault (s : State) (n : Nat) : (s.advance n).fault = s.fault := rfl
@[simp] theorem advance_read (s : State) (n : Nat) (a : Addr) : (s.advance n).read a = s.read a := rfl
@[simp] theorem advance_flag (s : State) (n : Nat) (f : Flag) : (s.advance n).flag f = s.flag f := rfl

@[simp] theorem write_acc (s : State) (a : Addr) (v : Byte) : (s.write a v).acc = s.acc := rfl
@[simp] theorem write_ix (s : State) (a : Addr) (v : Byte) : (s.write a v).ix = s.ix := rfl
@[simp] theorem write_iy (s : State) (a : Addr) (v : Byte) : (s.write a v).iy = s.iy := rfl
@[simp] theorem write_sp (s : State) (a : Addr) (v : Byte) : (s.write a v).sp = s.sp := rfl
@[simp] theorem write_pc (s : State) (a : Addr) (v : Byte) : (s.write a v).pc = s.pc := rfl
@[simp] theorem write_stat (s : State) (a : Addr) (v : Byte) : (s.write a v).stat = s.stat := rfl
@[simp] theorem write_ir (s : State) (a : Addr) (v : Byte) : (s.write a v).ir = s.ir := rfl
@[simp] theorem write_mem (s : State) (a : Addr) (v : Byte) : (s.write a v).mem = Memory.write s.mem a.toNat v := rfl
@[simp] theorem write_decoded (s : State) (a : Addr) (v : Byte) : (s.write a v).decoded = s.decoded := rfl
@[simp] theorem write_fault (s : State) (a : Addr) (v : Byte) : (s.write a v).fault = s.fault := rfl
@[simp] theorem write_flag (s : State) (a : Addr) (v : Byte) (f : Flag) : (s.write a v).flag f = s.flag f := rfl

@[simp] theorem push_acc (s : State) (v : Byte) : (s.push v).acc = s.acc := rfl
@[simp] theorem push_ix (s : State) (v : Byte) : (s.push v).ix = s.ix := rfl
@[simp] theorem push_iy (s : State) (v : Byte) : (s.push v).iy = s.iy := rfl
@[simp] theorem push_sp (s : State) (v : Byte) : (s.push v).sp = s.sp - 1 := rfl
@[simp] theorem push_pc (s : State) (v : Byte) : (s.push v).pc = s.pc := rfl
@[simp] theorem push_stat (s : State) (v : Byte) : (s.push v).stat = s.stat := rfl
@[simp] theorem push_ir (s : State) (v : Byte) : (s.push v).ir = s.ir := rfl
@[simp] theorem push_mem (s : State) (v : Byte) : (s.push v).mem = Memory.write s.mem (stackAddr s.sp).toNat v := rfl
@[simp] theorem push_decoded (s : State) (v : Byte) : (s.push v).decoded = s.decoded := rfl
@[simp] theorem push_fault (s : State) (v : Byte) : (s.push v).fault = s.fault := rfl
@[simp] theorem push_flag (s : State) (v : Byte) (f : Flag) : (s.push v).flag f = s.flag f := rfl

@[simp] theorem pull_value (s : State) : s.pull.1 = s.read (stackAddr (s.sp + 1)) := rfl
@[simp] theorem pull_state (s : State) : s.pull.2 = s.setSp (s.sp + 1) := rfl

@[simp] theorem latch_acc (s : State) : s.latch.acc = s.acc := rfl
@[simp] theorem latch_ix (s : State) : s.latch.ix = s.ix := rfl
@[simp] theorem latch_iy (s : State) : s.latch.iy = s.iy := rfl
@[simp] theorem latch_sp (s : State) : s.latch.sp = s.sp := rfl
@[simp] theorem latch_pc (s : State) : s.latch.pc = s.pc := rfl
@[simp] theorem latch_stat (s : State) : s.latch.stat = s.stat := rfl
@[simp] theorem latch_ir (s : State) : s.latch.ir = s.read s.pc := rfl
@[simp] theorem latch_mem (s : State) : s.latch.mem = s.mem := rfl
@[simp] theorem latch_decoded (s : State) : s.latch.decoded = decodeOpcode (s.read s.pc) := rfl
@[simp] theorem latch_fault (s : State) : s.latch.fault = s.fault := rfl
@[simp] theorem latch_read (s : State) (a : Addr) : s.latch.read a = s.read a := rfl
@[simp] theorem latch_flag (s : State) (f : Flag) : s.latch.flag f = s.flag f := rfl

end Sys2Proof.Machine
end

