-- ==== Sys2Proof/Laws/Flags.lean ====
section
/-! SUPPORT. The laws of the status register: reading a bit after writing one, and each instruction kind's new bits. -/

namespace Sys2Proof.Machine

@[simp] theorem getFlag_putFlag_same (f : Flag) (b : Bool) (st : Byte) : getFlag f (putFlag f b st) = b := by
  cases f <;> cases b <;> simp [getFlag, putFlag, flagMask, flagIndex]

theorem getFlag_putFlag_other {f g : Flag} (h : g ≠ f) (b : Bool) (st : Byte) :
    getFlag g (putFlag f b st) = getFlag g st := by
  revert h
  cases f <;> cases g <;> cases b <;> simp [getFlag, putFlag, flagMask, flagIndex]

theorem getFlag_putFlag (f g : Flag) (b : Bool) (st : Byte) :
    getFlag g (putFlag f b st) = if g = f then b else getFlag g st := by
  split
  · next h => rw [h, getFlag_putFlag_same]
  · next h => exact getFlag_putFlag_other h b st

/-- Two status bytes with the same eight bits are the same byte. -/
theorem stat_ext {x y : Byte} (h : ∀ f, getFlag f x = getFlag f y) : x = y := by
  apply BitVec.eq_of_getLsbD_eq
  intro i hi
  match i, hi with
  | 0, _ => exact h .C
  | 1, _ => exact h .Z
  | 2, _ => exact h .I
  | 3, _ => exact h .D
  | 4, _ => exact h .B
  | 5, _ => exact h .U
  | 6, _ => exact h .V
  | 7, _ => exact h .N

theorem getFlag_setNZ (g : Flag) (v st : Byte) :
    getFlag g (setNZ v st) = if g = .N then v.msb else if g = .Z then v == 0 else getFlag g st := by
  cases g <;> simp [setNZ, getFlag_putFlag]

theorem getFlag_statCZN (g : Flag) (out : AluOut) (st : Byte) :
    getFlag g (statCZN out st) =
      if g = .N then out.result.msb else if g = .Z then out.result == 0 else if g = .C then out.carry
      else getFlag g st := by
  cases g <;> simp [statCZN, getFlag_setNZ, getFlag_putFlag]

theorem getFlag_statCVZN (g : Flag) (out : AluOut) (st : Byte) :
    getFlag g (statCVZN out st) =
      if g = .N then out.result.msb else if g = .Z then out.result == 0 else if g = .V then out.overflow
      else if g = .C then out.carry else getFlag g st := by
  cases g <;> simp [statCVZN, getFlag_setNZ, getFlag_putFlag]

theorem getFlag_statBit (g : Flag) (a m st : Byte) :
    getFlag g (statBit a m st) =
      if g = .V then m.getLsbD 6 else if g = .N then m.getLsbD 7 else if g = .Z then a &&& m == 0
      else getFlag g st := by
  cases g <;> simp [statBit, getFlag_putFlag]

end Sys2Proof.Machine
end

