-- ==== Sys2Proof/Laws/Memory.lean ====
section
/-! SUPPORT. The laws of memory: a read after a write, and that every memory operation keeps the canonical form. -/

namespace Sys2Proof.Machine

theorem Memory.read_erase_same (m : Memory) (a : Nat) : Memory.read (Memory.erase m a) a = 0 := by
  induction m with
  | nil => rfl
  | cons c m ih =>
    by_cases h : c.1 = a
    · simpa [Memory.erase, h] using ih
    · simpa [Memory.erase, Memory.read, h] using ih

theorem Memory.read_erase_other (m : Memory) {a b : Nat} (h : b ≠ a) :
    Memory.read (Memory.erase m a) b = Memory.read m b := by
  induction m with
  | nil => rfl
  | cons c m ih =>
    by_cases hc : c.1 = a
    · have hb : ¬ a = b := fun e => h e.symm
      simpa [Memory.erase, Memory.read, hc, hb] using ih
    · simp [Memory.erase, Memory.read, hc, ih]

theorem Memory.read_insert_other (m : Memory) {a b : Nat} (v : Byte) (h : b ≠ a) :
    Memory.read (Memory.insert m a v) b = Memory.read m b := by
  have hab : ¬ a = b := fun e => h e.symm
  induction m with
  | nil => simp [Memory.insert, Memory.read, hab]
  | cons c m ih =>
    by_cases hc : a < c.1
    · simp [Memory.insert, Memory.read, hc, hab]
    · simp [Memory.insert, Memory.read, hc, ih]

theorem Memory.read_insert_same (m : Memory) (a : Nat) (v : Byte) :
    Memory.read (Memory.insert (Memory.erase m a) a v) a = v := by
  induction m with
  | nil => simp [Memory.erase, Memory.insert, Memory.read]
  | cons c m ih =>
    by_cases hc : c.1 = a
    · simpa [Memory.erase, hc] using ih
    · by_cases hl : a < c.1
      · simp [Memory.erase, Memory.insert, Memory.read, hc, hl]
      · simpa [Memory.erase, Memory.insert, Memory.read, hc, hl] using ih

/-- A read at the address just written gives the value written. -/
@[simp] theorem Memory.read_write_same (m : Memory) (a : Nat) (v : Byte) : Memory.read (Memory.write m a v) a = v := by
  unfold Memory.write
  split
  · next h => rw [Memory.read_erase_same, h]
  · exact Memory.read_insert_same m a v

/-- A write leaves every other address alone. -/
theorem Memory.read_write_other (m : Memory) {a b : Nat} (v : Byte) (h : b ≠ a) :
    Memory.read (Memory.write m a v) b = Memory.read m b := by
  unfold Memory.write
  split
  · exact Memory.read_erase_other m h
  · rw [Memory.read_insert_other _ v h, Memory.read_erase_other m h]

theorem Memory.read_write (m : Memory) (a b : Nat) (v : Byte) :
    Memory.read (Memory.write m a v) b = if b = a then v else Memory.read m b := by
  split
  · next h => rw [h, Memory.read_write_same]
  · next h => exact Memory.read_write_other m v h

theorem Memory.wfFrom_cons {lo : Nat} {c : Host.Cell} {m : Memory} :
    Memory.wfFrom lo (c :: m) = true ↔
      lo ≤ c.1 ∧ c.1 < Config.memSize ∧ c.2 ≠ 0 ∧ Memory.wfFrom (c.1 + 1) m = true := by
  simp [Memory.wfFrom, and_assoc]

theorem Memory.wfFrom_mono {lo hi : Nat} (m : Memory) (h : Memory.wfFrom hi m = true) (hl : lo ≤ hi) :
    Memory.wfFrom lo m = true := by
  cases m with
  | nil => rfl
  | cons c m =>
    rw [Memory.wfFrom_cons] at h ⊢
    exact ⟨by omega, h.2⟩

theorem Memory.wfFrom_erase (m : Memory) (a lo : Nat) (h : Memory.wfFrom lo m = true) :
    Memory.wfFrom lo (Memory.erase m a) = true := by
  induction m generalizing lo with
  | nil => rfl
  | cons c m ih =>
    rw [Memory.wfFrom_cons] at h
    by_cases hc : c.1 = a
    · simp only [Memory.erase, hc, if_true]
      exact ih lo (Memory.wfFrom_mono m h.2.2.2 (by omega))
    · simp only [Memory.erase, hc, if_false]
      rw [Memory.wfFrom_cons]
      exact ⟨h.1, h.2.1, h.2.2.1, ih _ h.2.2.2⟩

theorem Memory.wfFrom_insert (m : Memory) (a lo : Nat) (v : Byte) (h : Memory.wfFrom lo (Memory.erase m a) = true)
    (hl : lo ≤ a) (ha : a < Config.memSize) (hv : v ≠ 0) :
    Memory.wfFrom lo (Memory.insert (Memory.erase m a) a v) = true := by
  induction m generalizing lo with
  | nil =>
    rw [Memory.erase, Memory.insert, Memory.wfFrom_cons]
    exact ⟨hl, ha, hv, rfl⟩
  | cons c m ih =>
    by_cases hc : c.1 = a
    · simp only [Memory.erase, hc, if_true] at h ⊢
      exact ih lo h hl
    · simp only [Memory.erase, hc, if_false] at h ⊢
      rw [Memory.wfFrom_cons] at h
      by_cases hlt : a < c.1
      · simp only [Memory.insert, hlt, if_true]
        rw [Memory.wfFrom_cons, Memory.wfFrom_cons]
        exact ⟨hl, ha, hv, by omega, h.2⟩
      · simp only [Memory.insert, hlt, if_false]
        rw [Memory.wfFrom_cons]
        exact ⟨h.1, h.2.1, h.2.2.1, ih _ h.2.2.2 (by omega)⟩

/-- A write keeps the canonical form. -/
theorem Memory.wf_write (m : Memory) (a : Nat) (v : Byte) (h : Memory.wf m = true) (ha : a < Config.memSize) :
    Memory.wf (Memory.write m a v) = true := by
  unfold Memory.write
  have he := Memory.wfFrom_erase m a 0 h
  split
  · exact he
  · next hv => exact Memory.wfFrom_insert m a 0 v he (Nat.zero_le a) ha hv

theorem addr_lt_memSize (a : Addr) : a.toNat < Config.memSize := a.isLt

/-- `MemWrite` keeps the canonical form. -/
theorem write_wf (s : State) (a : Addr) (v : Byte) (h : Memory.wf s.mem = true) : Memory.wf (s.write a v).mem = true :=
  Memory.wf_write s.mem a.toNat v h (addr_lt_memSize a)

/-- Storing bytes one after the other keeps the canonical form. -/
theorem storeBytes_wf (bs : List Byte) (a : Nat) (s : State) (h : Memory.wf s.mem = true) :
    Memory.wf (s.storeBytes bs a).mem = true := by
  induction bs generalizing a s with
  | nil => exact h
  | cons b bs ih =>
    refine ih _ _ ?_
    split
    · next ha => exact Memory.wf_write s.mem a b h ha
    · exact h

theorem reset_wf : Memory.wf State.reset.mem = true := rfl

/-- `MemRead` after `MemWrite`. -/
theorem write_read (s : State) (a b : Addr) (v : Byte) : (s.write a v).read b = if b = a then v else s.read b := by
  simp [State.read, Memory.read_write, BitVec.toNat_inj]

@[simp] theorem write_read_same (s : State) (a : Addr) (v : Byte) : (s.write a v).read a = v := by
  simp [write_read]

theorem write_read_other (s : State) {a b : Addr} (v : Byte) (h : b ≠ a) : (s.write a v).read b = s.read b := by
  simp [write_read, h]

theorem fetch_below (s : State) {a : Nat} (h : a < Config.memSize) : s.fetch a = .ok (Memory.read s.mem a) := by
  simp [State.fetch, h]

theorem fetch_above (s : State) {a : Nat} (h : Config.memSize ≤ a) : s.fetch a = .error (.memoryBounds a) := by
  simp [State.fetch, Nat.not_lt.mpr h]

end Sys2Proof.Machine
end

