-- ==== Sys2Proof/Laws/Ops.lean ====
section
/-! SUPPORT. What the shared operations do, said once: 16-bit words from bytes, the stack page, push and pull, the trap. -/

namespace Sys2Proof.Machine

@[simp] theorem word16_high_low (a : Addr) : word16 (highByte a) (lowByte a) = a := by
  apply BitVec.eq_of_getLsbD_eq
  intro i hi
  simp only [word16, highByte, lowByte, BitVec.getLsbD_append, BitVec.getLsbD_extractLsb']
  by_cases h : i < 8
  · simp [h]
  · have h8 : i - 8 < 8 := by omega
    have e : 8 + (i - 8) = i := by omega
    simp [h, h8, e]

theorem word16_toNat (hi lo : Byte) : (word16 hi lo).toNat = hi.toNat * 256 + lo.toNat := by
  simp only [word16, BitVec.toNat_append]
  rw [← Nat.shiftLeft_add_eq_or_of_lt lo.isLt, Nat.shiftLeft_eq]

theorem lowByte_toNat (a : Addr) : (lowByte a).toNat = a.toNat % 256 := by
  simp [lowByte, BitVec.extractLsb'_toNat]

theorem highByte_toNat (a : Addr) : (highByte a).toNat = a.toNat / 256 := by
  have := a.isLt
  simp only [highByte, BitVec.extractLsb'_toNat, Nat.shiftRight_eq_div_pow]
  omega

@[simp] theorem lowByte_word16 (hi lo : Byte) : lowByte (word16 hi lo) = lo := by
  apply BitVec.eq_of_toNat_eq
  have := lo.isLt
  rw [lowByte_toNat, word16_toNat]
  omega

@[simp] theorem highByte_word16 (hi lo : Byte) : highByte (word16 hi lo) = hi := by
  apply BitVec.eq_of_toNat_eq
  have := lo.isLt
  rw [highByte_toNat, word16_toNat]
  omega

theorem zext16_toNat (b : Byte) : (zext16 b).toNat = b.toNat := by
  have := b.isLt
  simp only [zext16, BitVec.toNat_setWidth]
  omega

/-- A stack address is `0x0100 + sp`: never outside page 1 (`20_memory.md` R55). -/
theorem stackAddr_toNat (sp : Byte) : (stackAddr sp).toNat = 256 + sp.toNat := by
  have h : (0x0100 : Addr).toNat = 2 ^ 8 := rfl
  rw [stackAddr, Config.stackBase, BitVec.toNat_or, zext16_toNat, h, ← Nat.mul_one (2 ^ 8),
    ← Nat.two_pow_add_eq_or_of_lt sp.isLt]

theorem stackAddr_inj {p q : Byte} : stackAddr p = stackAddr q ↔ p = q := by
  constructor
  · intro h
    have := congrArg BitVec.toNat h
    rw [stackAddr_toNat, stackAddr_toNat] at this
    exact BitVec.eq_of_toNat_eq (by omega)
  · rintro rfl
    rfl

/-- The BRK vector is outside the stack page (`45_system.md` R240). -/
theorem stackAddr_ne_high (sp : Byte) {a : Addr} (h : 512 ≤ a.toNat) : a ≠ stackAddr sp := by
  intro e
  have := congrArg BitVec.toNat e
  rw [stackAddr_toNat] at this
  have := sp.isLt
  omega

/-- A push stores one byte, at the stack address before the decrement (`20_memory.md` R60). -/
theorem push_read (s : State) (v : Byte) (a : Addr) :
    (s.push v).read a = if a = stackAddr s.sp then v else s.read a := write_read s (stackAddr s.sp) a v

theorem push_wf (s : State) (v : Byte) (h : Memory.wf s.mem = true) : Memory.wf (s.push v).mem = true :=
  write_wf s (stackAddr s.sp) v h

theorem pullClearing_value (p : Params) (s : State) : (s.pullClearing p).1 = s.read (stackAddr (s.sp + 1)) := rfl

theorem pullClearing_state (s : State) :
    (State.pullClearing Config.params s).2 = (s.setSp (s.sp + 1)).write (stackAddr (s.sp + 1)) 0 := rfl

theorem pullWord_value (s : State) :
    s.pullWord.1 = word16 (s.read (stackAddr (s.sp + 1 + 1))) (s.read (stackAddr (s.sp + 1))) := rfl

theorem pullWord_state (s : State) : s.pullWord.2 = s.setSp (s.sp + 1 + 1) := rfl

/-- Everything the return from the trap does: no write to memory, `sp` up by three (`45_system.md` R242). -/
theorem trapReturn_eq (s : State) :
    State.trapReturn Config.params s =
      ((s.setStat (s.read (stackAddr (s.sp + 1)))).setSp (s.sp + 1 + 1 + 1)).setPc
        (word16 (s.read (stackAddr (s.sp + 1 + 1 + 1))) (s.read (stackAddr (s.sp + 1 + 1)))) := rfl

/-- Everything taking the trap does, but for where `pc` goes: three pushes and B (`45_system.md` R240). -/
theorem trapEntry_saves (s : State) :
    ∃ target, State.trapEntry Config.params s =
      ((((s.setStat (putFlag .B true s.stat)).pushWord (s.pc + 2)).push (putFlag .B true s.stat))).setPc target :=
  ⟨_, rfl⟩

/-- The vector is read as it stands before the trap: the pushes cannot change it (`45_system.md` R240). -/
theorem trapEntry_pc (s : State) : (State.trapEntry Config.params s).pc = word16 (s.read 0xFFFF) (s.read 0xFFFE) := by
  have key : ∀ a : Addr, 512 ≤ a.toNat →
      ((((s.setStat (putFlag .B true s.stat)).pushWord (s.pc + 2)).push (putFlag .B true s.stat))).read a = s.read a := by
    intro a ha
    rw [push_read, if_neg (stackAddr_ne_high _ ha), State.pushWord, push_read, if_neg (stackAddr_ne_high _ ha),
      push_read, if_neg (stackAddr_ne_high _ ha)]
    rfl
  show word16 _ _ = _
  exact congrArg₂ word16 (key 0xFFFF (by decide)) (key 0xFFFE (by decide))

/-- The stack addresses of `sp`, `sp - 1` and `sp - 2` are different ones. -/
theorem stackAddr_ne_sub_one (p : Byte) : stackAddr p ≠ stackAddr (p - 1) := fun h => by
  have := stackAddr_inj.mp h
  bv_omega

theorem stackAddr_ne_sub_two (p : Byte) : stackAddr p ≠ stackAddr (p - 2) := fun h => by
  have := stackAddr_inj.mp h
  bv_omega

theorem stackAddr_sub_one_ne_sub_two (p : Byte) : stackAddr (p - 1) ≠ stackAddr (p - 2) := fun h => by
  have := stackAddr_inj.mp h
  bv_omega

/-- A pushed word: its high byte at the stack address, its low byte one below (`20_memory.md` R62). -/
theorem pushWord_read (s : State) (w a : Addr) :
    (s.pushWord w).read a =
      if a = stackAddr (s.sp - 1) then lowByte w else if a = stackAddr s.sp then highByte w else s.read a := by
  rw [State.pushWord, push_read, push_read]
  rfl

/-- The bytes after taking the trap: `stat` with B, the low and the high byte of the return address, the rest as before. -/
theorem trapEntry_read (s : State) (a : Addr) :
    (State.trapEntry Config.params s).read a =
      if a = stackAddr (s.sp - 2) then putFlag .B true s.stat
      else if a = stackAddr (s.sp - 1) then lowByte (s.pc + 2)
      else if a = stackAddr s.sp then highByte (s.pc + 2) else s.read a := by
  obtain ⟨target, h⟩ := trapEntry_saves s
  have two : s.sp - 1 - 1 = s.sp - 2 := by bv_omega
  rw [h]
  show (State.push _ _).read a = _
  rw [push_read, pushWord_read]
  show (if a = stackAddr (s.sp - 1 - 1) then _ else _) = _
  rw [two]
  rfl

/-- The registers after taking the trap: `sp` down by three, B set; all but `sp`, `pc`, `stat` and memory unchanged. -/
theorem trapEntry_frame (s : State) :
    State.trapEntry Config.params s =
      { s with sp := s.sp - 3, pc := (State.trapEntry Config.params s).pc, stat := putFlag .B true s.stat,
               mem := (State.trapEntry Config.params s).mem } := by
  obtain ⟨target, h⟩ := trapEntry_saves s
  have three : s.sp - 3 = s.sp - 1 - 1 - 1 := by bv_omega
  rw [h, three]
  unfold State.setPc State.push State.pushWord State.push State.setSp State.write State.setMem State.setStat
  rfl

end Sys2Proof.Machine
end

