-- ==== Sys2Proof/Laws/PerInstr.lean ====
section
/-! SUPPORT. Per instruction: the row the opcode table has for the encoder's opcode byte. The encoder is written from the
"Encodings" lines of the instruction rules and the table from `30_encoding.md` R93; the lemmas say that they agree. -/

namespace Sys2Proof.Laws.TableRow

/-- The table's row for the opcode byte of `i` has the mnemonic and the format of `i`, and its length is the number of
bytes the encoder writes. -/
def Statement (i : Instr) : Prop :=
  ∃ e, decodeOpcode i.opcode = some e ∧ e.mnemonic = i.mnemonic ∧ e.mode = i.mode ∧ (encode i).length = e.length

theorem brk : Statement .brk := ⟨_, rfl, rfl, rfl, rfl⟩
theorem oraIzx (z : Byte) : Statement (.oraIzx z) := ⟨_, rfl, rfl, rfl, rfl⟩
theorem oraZp (z : Byte) : Statement (.oraZp z) := ⟨_, rfl, rfl, rfl, rfl⟩
theorem aslZp (z : Byte) : Statement (.aslZp z) := ⟨_, rfl, rfl, rfl, rfl⟩
theorem php : Statement .php := ⟨_, rfl, rfl, rfl, rfl⟩
theorem oraImm (v : Byte) : Statement (.oraImm v) := ⟨_, rfl, rfl, rfl, rfl⟩
theorem aslAcc : Statement .aslAcc := ⟨_, rfl, rfl, rfl, rfl⟩
theorem oraAbs (a : Addr) : Statement (.oraAbs a) := ⟨_, rfl, rfl, rfl, rfl⟩
theorem aslAbs (a : Addr) : Statement (.aslAbs a) := ⟨_, rfl, rfl, rfl, rfl⟩
theorem bpl (d : Byte) : Statement (.bpl d) := ⟨_, rfl, rfl, rfl, rfl⟩
theorem oraIzy (z : Byte) : Statement (.oraIzy z) := ⟨_, rfl, rfl, rfl, rfl⟩
theorem oraZpx (z : Byte) : Statement (.oraZpx z) := ⟨_, rfl, rfl, rfl, rfl⟩
theorem aslZpx (z : Byte) : Statement (.aslZpx z) := ⟨_, rfl, rfl, rfl, rfl⟩
theorem clc : Statement .clc := ⟨_, rfl, rfl, rfl, rfl⟩
theorem oraAby (a : Addr) : Statement (.oraAby a) := ⟨_, rfl, rfl, rfl, rfl⟩
theorem oraAbx (a : Addr) : Statement (.oraAbx a) := ⟨_, rfl, rfl, rfl, rfl⟩
theorem aslAbx (a : Addr) : Statement (.aslAbx a) := ⟨_, rfl, rfl, rfl, rfl⟩
theorem jsr (a : Addr) : Statement (.jsr a) := ⟨_, rfl, rfl, rfl, rfl⟩
theorem andIzx (z : Byte) : Statement (.andIzx z) := ⟨_, rfl, rfl, rfl, rfl⟩
theorem bitZp (z : Byte) : Statement (.bitZp z) := ⟨_, rfl, rfl, rfl, rfl⟩
theorem andZp (z : Byte) : Statement (.andZp z) := ⟨_, rfl, rfl, rfl, rfl⟩
theorem rolZp (z : Byte) : Statement (.rolZp z) := ⟨_, rfl, rfl, rfl, rfl⟩
theorem plp : Statement .plp := ⟨_, rfl, rfl, rfl, rfl⟩
theorem andImm (v : Byte) : Statement (.andImm v) := ⟨_, rfl, rfl, rfl, rfl⟩
theorem rolAcc : Statement .rolAcc := ⟨_, rfl, rfl, rfl, rfl⟩
theorem bitAbs (a : Addr) : Statement (.bitAbs a) := ⟨_, rfl, rfl, rfl, rfl⟩
theorem andAbs (a : Addr) : Statement (.andAbs a) := ⟨_, rfl, rfl, rfl, rfl⟩
theorem rolAbs (a : Addr) : Statement (.rolAbs a) := ⟨_, rfl, rfl, rfl, rfl⟩
theorem bmi (d : Byte) : Statement (.bmi d) := ⟨_, rfl, rfl, rfl, rfl⟩
theorem andIzy (z : Byte) : Statement (.andIzy z) := ⟨_, rfl, rfl, rfl, rfl⟩
theorem andZpx (z : Byte) : Statement (.andZpx z) := ⟨_, rfl, rfl, rfl, rfl⟩
theorem rolZpx (z : Byte) : Statement (.rolZpx z) := ⟨_, rfl, rfl, rfl, rfl⟩
theorem sec : Statement .sec := ⟨_, rfl, rfl, rfl, rfl⟩
theorem andAby (a : Addr) : Statement (.andAby a) := ⟨_, rfl, rfl, rfl, rfl⟩
theorem andAbx (a : Addr) : Statement (.andAbx a) := ⟨_, rfl, rfl, rfl, rfl⟩
theorem rolAbx (a : Addr) : Statement (.rolAbx a) := ⟨_, rfl, rfl, rfl, rfl⟩
theorem rti : Statement .rti := ⟨_, rfl, rfl, rfl, rfl⟩
theorem eorIzx (z : Byte) : Statement (.eorIzx z) := ⟨_, rfl, rfl, rfl, rfl⟩
theorem eorZp (z : Byte) : Statement (.eorZp z) := ⟨_, rfl, rfl, rfl, rfl⟩
theorem lsrZp (z : Byte) : Statement (.lsrZp z) := ⟨_, rfl, rfl, rfl, rfl⟩
theorem pha : Statement .pha := ⟨_, rfl, rfl, rfl, rfl⟩
theorem eorImm (v : Byte) : Statement (.eorImm v) := ⟨_, rfl, rfl, rfl, rfl⟩
theorem lsrAcc : Statement .lsrAcc := ⟨_, rfl, rfl, rfl, rfl⟩
theorem jmpAbs (a : Addr) : Statement (.jmpAbs a) := ⟨_, rfl, rfl, rfl, rfl⟩
theorem eorAbs (a : Addr) : Statement (.eorAbs a) := ⟨_, rfl, rfl, rfl, rfl⟩
theorem lsrAbs (a : Addr) : Statement (.lsrAbs a) := ⟨_, rfl, rfl, rfl, rfl⟩
theorem bvc (d : Byte) : Statement (.bvc d) := ⟨_, rfl, rfl, rfl, rfl⟩
theorem eorIzy (z : Byte) : Statement (.eorIzy z) := ⟨_, rfl, rfl, rfl, rfl⟩
theorem eorZpx (z : Byte) : Statement (.eorZpx z) := ⟨_, rfl, rfl, rfl, rfl⟩
theorem lsrZpx (z : Byte) : Statement (.lsrZpx z) := ⟨_, rfl, rfl, rfl, rfl⟩
theorem cli : Statement .cli := ⟨_, rfl, rfl, rfl, rfl⟩
theorem eorAby (a : Addr) : Statement (.eorAby a) := ⟨_, rfl, rfl, rfl, rfl⟩
theorem eorAbx (a : Addr) : Statement (.eorAbx a) := ⟨_, rfl, rfl, rfl, rfl⟩
theorem lsrAbx (a : Addr) : Statement (.lsrAbx a) := ⟨_, rfl, rfl, rfl, rfl⟩
theorem rts : Statement .rts := ⟨_, rfl, rfl, rfl, rfl⟩
theorem adcIzx (z : Byte) : Statement (.adcIzx z) := ⟨_, rfl, rfl, rfl, rfl⟩
theorem adcZp (z : Byte) : Statement (.adcZp z) := ⟨_, rfl, rfl, rfl, rfl⟩
theorem rorZp (z : Byte) : Statement (.rorZp z) := ⟨_, rfl, rfl, rfl, rfl⟩
theorem pla : Statement .pla := ⟨_, rfl, rfl, rfl, rfl⟩
theorem adcImm (v : Byte) : Statement (.adcImm v) := ⟨_, rfl, rfl, rfl, rfl⟩
theorem rorAcc : Statement .rorAcc := ⟨_, rfl, rfl, rfl, rfl⟩
theorem jmpInd (a : Addr) : Statement (.jmpInd a) := ⟨_, rfl, rfl, rfl, rfl⟩
theorem adcAbs (a : Addr) : Statement (.adcAbs a) := ⟨_, rfl, rfl, rfl, rfl⟩
theorem rorAbs (a : Addr) : Statement (.rorAbs a) := ⟨_, rfl, rfl, rfl, rfl⟩
theorem bvs (d : Byte) : Statement (.bvs d) := ⟨_, rfl, rfl, rfl, rfl⟩
theorem adcIzy (z : Byte) : Statement (.adcIzy z) := ⟨_, rfl, rfl, rfl, rfl⟩
theorem adcZpx (z : Byte) : Statement (.adcZpx z) := ⟨_, rfl, rfl, rfl, rfl⟩
theorem rorZpx (z : Byte) : Statement (.rorZpx z) := ⟨_, rfl, rfl, rfl, rfl⟩
theorem sei : Statement .sei := ⟨_, rfl, rfl, rfl, rfl⟩
theorem adcAby (a : Addr) : Statement (.adcAby a) := ⟨_, rfl, rfl, rfl, rfl⟩
theorem adcAbx (a : Addr) : Statement (.adcAbx a) := ⟨_, rfl, rfl, rfl, rfl⟩
theorem rorAbx (a : Addr) : Statement (.rorAbx a) := ⟨_, rfl, rfl, rfl, rfl⟩
theorem staIzx (z : Byte) : Statement (.staIzx z) := ⟨_, rfl, rfl, rfl, rfl⟩
theorem styZp (z : Byte) : Statement (.styZp z) := ⟨_, rfl, rfl, rfl, rfl⟩
theorem staZp (z : Byte) : Statement (.staZp z) := ⟨_, rfl, rfl, rfl, rfl⟩
theorem stxZp (z : Byte) : Statement (.stxZp z) := ⟨_, rfl, rfl, rfl, rfl⟩
theorem dey : Statement .dey := ⟨_, rfl, rfl, rfl, rfl⟩
theorem txa : Statement .txa := ⟨_, rfl, rfl, rfl, rfl⟩
theorem styAbs (a : Addr) : Statement (.styAbs a) := ⟨_, rfl, rfl, rfl, rfl⟩
theorem staAbs (a : Addr) : Statement (.staAbs a) := ⟨_, rfl, rfl, rfl, rfl⟩
theorem stxAbs (a : Addr) : Statement (.stxAbs a) := ⟨_, rfl, rfl, rfl, rfl⟩
theorem bcc (d : Byte) : Statement (.bcc d) := ⟨_, rfl, rfl, rfl, rfl⟩
theorem staIzy (z : Byte) : Statement (.staIzy z) := ⟨_, rfl, rfl, rfl, rfl⟩
theorem styZpx (z : Byte) : Statement (.styZpx z) := ⟨_, rfl, rfl, rfl, rfl⟩
theorem staZpx (z : Byte) : Statement (.staZpx z) := ⟨_, rfl, rfl, rfl, rfl⟩
theorem stxZpy (z : Byte) : Statement (.stxZpy z) := ⟨_, rfl, rfl, rfl, rfl⟩
theorem tya : Statement .tya := ⟨_, rfl, rfl, rfl, rfl⟩
theorem staAby (a : Addr) : Statement (.staAby a) := ⟨_, rfl, rfl, rfl, rfl⟩
theorem txs : Statement .txs := ⟨_, rfl, rfl, rfl, rfl⟩
theorem staAbx (a : Addr) : Statement (.staAbx a) := ⟨_, rfl, rfl, rfl, rfl⟩
theorem ldyImm (v : Byte) : Statement (.ldyImm v) := ⟨_, rfl, rfl, rfl, rfl⟩
theorem ldaIzx (z : Byte) : Statement (.ldaIzx z) := ⟨_, rfl, rfl, rfl, rfl⟩
theorem ldxImm (v : Byte) : Statement (.ldxImm v) := ⟨_, rfl, rfl, rfl, rfl⟩
theorem ldyZp (z : Byte) : Statement (.ldyZp z) := ⟨_, rfl, rfl, rfl, rfl⟩
theorem ldaZp (z : Byte) : Statement (.ldaZp z) := ⟨_, rfl, rfl, rfl, rfl⟩
theorem ldxZp (z : Byte) : Statement (.ldxZp z) := ⟨_, rfl, rfl, rfl, rfl⟩
theorem tay : Statement .tay := ⟨_, rfl, rfl, rfl, rfl⟩
theorem ldaImm (v : Byte) : Statement (.ldaImm v) := ⟨_, rfl, rfl, rfl, rfl⟩
theorem tax : Statement .tax := ⟨_, rfl, rfl, rfl, rfl⟩
theorem ldyAbs (a : Addr) : Statement (.ldyAbs a) := ⟨_, rfl, rfl, rfl, rfl⟩
theorem ldaAbs (a : Addr) : Statement (.ldaAbs a) := ⟨_, rfl, rfl, rfl, rfl⟩
theorem ldxAbs (a : Addr) : Statement (.ldxAbs a) := ⟨_, rfl, rfl, rfl, rfl⟩
theorem bcs (d : Byte) : Statement (.bcs d) := ⟨_, rfl, rfl, rfl, rfl⟩
theorem ldaIzy (z : Byte) : Statement (.ldaIzy z) := ⟨_, rfl, rfl, rfl, rfl⟩
theorem ldyZpx (z : Byte) : Statement (.ldyZpx z) := ⟨_, rfl, rfl, rfl, rfl⟩
theorem ldaZpx (z : Byte) : Statement (.ldaZpx z) := ⟨_, rfl, rfl, rfl, rfl⟩
theorem ldxZpy (z : Byte) : Statement (.ldxZpy z) := ⟨_, rfl, rfl, rfl, rfl⟩
theorem clv : Statement .clv := ⟨_, rfl, rfl, rfl, rfl⟩
theorem ldaAby (a : Addr) : Statement (.ldaAby a) := ⟨_, rfl, rfl, rfl, rfl⟩
theorem tsx : Statement .tsx := ⟨_, rfl, rfl, rfl, rfl⟩
theorem ldyAbx (a : Addr) : Statement (.ldyAbx a) := ⟨_, rfl, rfl, rfl, rfl⟩
theorem ldaAbx (a : Addr) : Statement (.ldaAbx a) := ⟨_, rfl, rfl, rfl, rfl⟩
theorem ldxAby (a : Addr) : Statement (.ldxAby a) := ⟨_, rfl, rfl, rfl, rfl⟩
theorem cpyImm (v : Byte) : Statement (.cpyImm v) := ⟨_, rfl, rfl, rfl, rfl⟩
theorem cmpIzx (z : Byte) : Statement (.cmpIzx z) := ⟨_, rfl, rfl, rfl, rfl⟩
theorem cpyZp (z : Byte) : Statement (.cpyZp z) := ⟨_, rfl, rfl, rfl, rfl⟩
theorem cmpZp (z : Byte) : Statement (.cmpZp z) := ⟨_, rfl, rfl, rfl, rfl⟩
theorem decZp (z : Byte) : Statement (.decZp z) := ⟨_, rfl, rfl, rfl, rfl⟩
theorem iny : Statement .iny := ⟨_, rfl, rfl, rfl, rfl⟩
theorem cmpImm (v : Byte) : Statement (.cmpImm v) := ⟨_, rfl, rfl, rfl, rfl⟩
theorem dex : Statement .dex := ⟨_, rfl, rfl, rfl, rfl⟩
theorem cpyAbs (a : Addr) : Statement (.cpyAbs a) := ⟨_, rfl, rfl, rfl, rfl⟩
theorem cmpAbs (a : Addr) : Statement (.cmpAbs a) := ⟨_, rfl, rfl, rfl, rfl⟩
theorem decAbs (a : Addr) : Statement (.decAbs a) := ⟨_, rfl, rfl, rfl, rfl⟩
theorem bne (d : Byte) : Statement (.bne d) := ⟨_, rfl, rfl, rfl, rfl⟩
theorem cmpIzy (z : Byte) : Statement (.cmpIzy z) := ⟨_, rfl, rfl, rfl, rfl⟩
theorem cmpZpx (z : Byte) : Statement (.cmpZpx z) := ⟨_, rfl, rfl, rfl, rfl⟩
theorem decZpx (z : Byte) : Statement (.decZpx z) := ⟨_, rfl, rfl, rfl, rfl⟩
theorem cld : Statement .cld := ⟨_, rfl, rfl, rfl, rfl⟩
theorem cmpAby (a : Addr) : Statement (.cmpAby a) := ⟨_, rfl, rfl, rfl, rfl⟩
theorem cmpAbx (a : Addr) : Statement (.cmpAbx a) := ⟨_, rfl, rfl, rfl, rfl⟩
theorem decAbx (a : Addr) : Statement (.decAbx a) := ⟨_, rfl, rfl, rfl, rfl⟩
theorem cpxImm (v : Byte) : Statement (.cpxImm v) := ⟨_, rfl, rfl, rfl, rfl⟩
theorem sbcIzx (z : Byte) : Statement (.sbcIzx z) := ⟨_, rfl, rfl, rfl, rfl⟩
theorem cpxZp (z : Byte) : Statement (.cpxZp z) := ⟨_, rfl, rfl, rfl, rfl⟩
theorem sbcZp (z : Byte) : Statement (.sbcZp z) := ⟨_, rfl, rfl, rfl, rfl⟩
theorem incZp (z : Byte) : Statement (.incZp z) := ⟨_, rfl, rfl, rfl, rfl⟩
theorem inx : Statement .inx := ⟨_, rfl, rfl, rfl, rfl⟩
theorem sbcImm (v : Byte) : Statement (.sbcImm v) := ⟨_, rfl, rfl, rfl, rfl⟩
theorem nop : Statement .nop := ⟨_, rfl, rfl, rfl, rfl⟩
theorem cpxAbs (a : Addr) : Statement (.cpxAbs a) := ⟨_, rfl, rfl, rfl, rfl⟩
theorem sbcAbs (a : Addr) : Statement (.sbcAbs a) := ⟨_, rfl, rfl, rfl, rfl⟩
theorem incAbs (a : Addr) : Statement (.incAbs a) := ⟨_, rfl, rfl, rfl, rfl⟩
theorem beq (d : Byte) : Statement (.beq d) := ⟨_, rfl, rfl, rfl, rfl⟩
theorem sbcIzy (z : Byte) : Statement (.sbcIzy z) := ⟨_, rfl, rfl, rfl, rfl⟩
theorem sbcZpx (z : Byte) : Statement (.sbcZpx z) := ⟨_, rfl, rfl, rfl, rfl⟩
theorem incZpx (z : Byte) : Statement (.incZpx z) := ⟨_, rfl, rfl, rfl, rfl⟩
theorem sed : Statement .sed := ⟨_, rfl, rfl, rfl, rfl⟩
theorem sbcAby (a : Addr) : Statement (.sbcAby a) := ⟨_, rfl, rfl, rfl, rfl⟩
theorem sbcAbx (a : Addr) : Statement (.sbcAbx a) := ⟨_, rfl, rfl, rfl, rfl⟩
theorem incAbx (a : Addr) : Statement (.incAbx a) := ⟨_, rfl, rfl, rfl, rfl⟩

end Sys2Proof.Laws.TableRow
end

