-- ==== Sys2Proof/Laws/Run.lean ====
section
/-! SUPPORT. The laws of a run: one more step of `core.run`, of `goesOnFor` and of `runUnder`, said once. -/

namespace Sys2Proof.Machine

@[simp] theorem run_zero (s : State) : Sys2Proof.core.run 0 s = .next s := rfl

/-- One more step in front of a run that answers a next state. -/
theorem run_succ (j : Nat) (s t : State) :
    Sys2Proof.core.run (j + 1) s = .next t ↔ ∃ u, step s = .next u ∧ Sys2Proof.core.run j u = .next t := by
  have e : Sys2Proof.core.step s = step s := rfl
  simp only [Host.Core.run]
  rw [e]
  cases step s with
  | next u => exact ⟨fun h => ⟨u, rfl, h⟩, fun ⟨_, hv, h⟩ => by cases hv; exact h⟩
  | fault _ => exact ⟨(nomatch ·), fun ⟨_, hv, _⟩ => nomatch hv⟩
  | refused _ => exact ⟨(nomatch ·), fun ⟨_, hv, _⟩ => nomatch hv⟩

theorem goesOnFor_zero (halt : State → Nat → Bool) (n : Nat) (s : State) : goesOnFor halt 0 n s :=
  fun _ hi => absurd hi (Nat.not_lt_zero _)

/-- The policy fails at the first state, and the run goes on from the next one. -/
theorem goesOnFor_succ (halt : State → Nat → Bool) (j n : Nat) (s : State) :
    goesOnFor halt (j + 1) n s ↔
      halt s n = false ∧ (j = 0 ∨ ∃ u, step s = .next u ∧ goesOnFor halt j (n + 1) u) := by
  constructor
  · intro h
    obtain ⟨_, ⟨⟩, h0⟩ := h 0 (by omega)
    refine ⟨h0, ?_⟩
    cases j with
    | zero => exact .inl rfl
    | succ j =>
      obtain ⟨v, hv, -⟩ := h 1 (by omega)
      obtain ⟨w, hw, -⟩ := (run_succ 0 s v).mp hv
      refine .inr ⟨w, hw, fun i hi => ?_⟩
      obtain ⟨x, hx, hh⟩ := h (i + 1) (by omega)
      obtain ⟨w', hw', hx⟩ := (run_succ i s x).mp hx
      cases hw.symm.trans hw'
      exact ⟨x, hx, by rw [← hh]; congr 1; omega⟩
  · rintro ⟨h0, h⟩ i hi
    cases i with
    | zero => exact ⟨s, rfl, h0⟩
    | succ i =>
      obtain rfl | ⟨u, hu, h⟩ := h
      · omega
      · obtain ⟨v, hv, hh⟩ := h i (by omega)
        exact ⟨v, (run_succ i s v).mpr ⟨u, hu, hv⟩, by rw [← hh]; congr 1; omega⟩

/-- A recorded fault is tested first. -/
theorem runUnder_of_fault (halt : State → Nat → Bool) (k n : Nat) {s : State} (h : s.fault ≠ none) :
    runUnder halt k n s = .faulted s := by
  have : s.fault.isSome = true := Option.isSome_iff_ne_none.mpr h
  cases k <;> simp only [runUnder, this, if_true]

theorem runUnder_of_halt (halt : State → Nat → Bool) (k n : Nat) {s : State} (h : s.fault = none)
    (hh : halt s n = true) : runUnder halt k n s = .halted s := by
  cases k <;> simp [runUnder, h, hh]

theorem runUnder_zero_running (halt : State → Nat → Bool) (n : Nat) {s : State} (h : s.fault = none)
    (hh : halt s n = false) : runUnder halt 0 n s = .running s := by
  simp [runUnder, h, hh]

theorem runUnder_succ (halt : State → Nat → Bool) (k n : Nat) {s : State} (h : s.fault = none)
    (hh : halt s n = false) : runUnder halt (k + 1) n s = runUnder halt k (n + 1) s.afterStep := by
  simp [runUnder, h, hh]

end Sys2Proof.Machine
end

