-- ==== Sys2Proof/Laws/Step.lean ====
section
/-! SUPPORT. What a step can do, said once. -/

namespace Sys2Proof.Machine

/-- A next state comes from the decoded instruction's meaning on the latched state, and from nothing else. -/
theorem step_next {s t : State} (h : step s = .next t) :
    s.fault = none ∧ ∃ i, s.fetchDecode = .ok i ∧ exec i s.latch = .next t := by
  unfold step at h
  split at h
  · cases h
  · next hf =>
    split at h
    · cases h
    · next i hi => exact ⟨hf, i, hi, h⟩

/-- A fault is the recorded one, one of fetch and decode, or one of the decoded instruction's meaning. -/
theorem step_fault {s : State} {f : Fault} (h : step s = .fault f) :
    s.fault = some f ∨ s.fault = none ∧ (s.fetchDecode = .error f ∨ ∃ i, s.fetchDecode = .ok i ∧ exec i s.latch = .fault f) := by
  unfold step at h
  split at h
  · next g hg =>
    cases h
    exact .inl hg
  · next hf =>
    refine .inr ⟨hf, ?_⟩
    split at h
    · next g hg =>
      cases h
      exact .inl hg
    · next i hi => exact .inr ⟨i, hi, h⟩

theorem fetchDecode_ok {s : State} {i : Instr} (h : s.fetchDecode = .ok i) : ∃ rest, decode s.codeBytes = .ok (i, rest) := by
  unfold State.fetchDecode at h
  split at h <;> cases h
  exact ⟨_, by assumption⟩

theorem step_running {s : State} {i : Instr} (hf : s.fault = none) (hd : s.fetchDecode = .ok i) : step s = exec i s.latch := by
  simp [step, hf, hd]

end Sys2Proof.Machine
end

