-- ==== Sys2Proof/Laws/Shapes.lean ====
section
/-! SUPPORT. The 151 arms of `exec` as 28 shapes: which shared operation an instruction is, over which operand, with which
mnemonics and length. A proof about every instruction takes `shape i` apart, 28 cases and not 151. -/

namespace Sys2Proof.Machine

/-- The meaning of `i` as one of the shared operations, or one of the twelve that stand alone. What a register source `rd` reads
does not depend on `stat`. -/
inductive Shape (i : Instr) : Prop
  | arith (alu : Byte → Byte → Bool → AluOut) (o : Operand) (eq : ∀ s, exec i s = addSub alu o s)
      (mn : i.mnemonic ∈ [Mnemonic.ADC, .SBC]) (len : o.length = i.length)
  | compare (rd : State → Byte) (o : Operand) (eq : ∀ s, exec i s = compareWith (rd s) o s)
      (mn : i.mnemonic ∈ [Mnemonic.CMP, .CPX, .CPY]) (src : ∀ s st, rd (s.setStat st) = rd s) (len : o.length = i.length)
  | loadAcc (o : Operand) (eq : ∀ s, exec i s = loadWith State.setAcc o s)
      (mn : i.mnemonic ∈ [Mnemonic.LDA]) (len : o.length = i.length)
  | loadIx (o : Operand) (eq : ∀ s, exec i s = loadWith State.setIx o s)
      (mn : i.mnemonic ∈ [Mnemonic.LDX]) (len : o.length = i.length)
  | loadIy (o : Operand) (eq : ∀ s, exec i s = loadWith State.setIy o s)
      (mn : i.mnemonic ∈ [Mnemonic.LDY]) (len : o.length = i.length)
  | store (rd : State → Byte) (q : MemOperand) (eq : ∀ s, exec i s = storeWith (rd s) q s)
      (mn : i.mnemonic ∈ [Mnemonic.STA, .STX, .STY]) (src : ∀ s st, rd (s.setStat st) = rd s) (len : q.length = i.length)
  | logic (op : Byte → Byte → Byte) (o : Operand) (eq : ∀ s, exec i s = logicWith op o s)
      (mn : i.mnemonic ∈ [Mnemonic.AND, .ORA, .EOR]) (len : o.length = i.length)
  | bit (o : Operand) (eq : ∀ s, exec i s = bitWith o s)
      (mn : i.mnemonic ∈ [Mnemonic.BIT]) (len : o.length = i.length)
  | shiftAcc (op : Byte → Bool → AluOut) (eq : ∀ s, exec i s = Machine.shiftAcc op s)
      (mn : i.mnemonic ∈ [Mnemonic.ASL, .LSR, .ROL, .ROR]) (md : i.mode = .ACC) (len : 1 = i.length)
  | shiftMem (op : Byte → Bool → AluOut) (q : MemOperand) (eq : ∀ s, exec i s = Machine.shiftMem op q s)
      (mn : i.mnemonic ∈ [Mnemonic.ASL, .LSR, .ROL, .ROR]) (md : i.mode ≠ .ACC) (len : q.length = i.length)
  | bump (op : Byte → Byte) (q : MemOperand) (eq : ∀ s, exec i s = bumpMem op q s)
      (mn : i.mnemonic ∈ [Mnemonic.INC, .DEC]) (len : q.length = i.length)
  | toAcc (rd : State → Byte) (eq : ∀ s, exec i s = registerNZ State.setAcc (rd s) s)
      (mn : i.mnemonic ∈ [Mnemonic.TXA, .TYA]) (src : ∀ s st, rd (s.setStat st) = rd s) (len : 1 = i.length)
  | toIx (rd : State → Byte) (eq : ∀ s, exec i s = registerNZ State.setIx (rd s) s)
      (mn : i.mnemonic ∈ [Mnemonic.TAX, .TSX, .INX, .DEX]) (src : ∀ s st, rd (s.setStat st) = rd s) (len : 1 = i.length)
  | toIy (rd : State → Byte) (eq : ∀ s, exec i s = registerNZ State.setIy (rd s) s)
      (mn : i.mnemonic ∈ [Mnemonic.TAY, .INY, .DEY]) (src : ∀ s st, rd (s.setStat st) = rd s) (len : 1 = i.length)
  | flagWrite (f : Flag) (b : Bool) (eq : ∀ s, exec i s = Machine.flagWrite f b s)
      (mn : (i.mnemonic, f) ∈ [(Mnemonic.CLC, Flag.C), (.SEC, .C), (.CLD, .D), (.SED, .D), (.CLI, .I), (.SEI, .I), (.CLV, .V)])
      (len : 1 = i.length)
  | branch (f : Flag) (want : Bool) (d : Byte) (eq : ∀ s, exec i s = branchOn f want d s)
      (mn : (i.mnemonic, f) ∈ [(Mnemonic.BCC, Flag.C), (.BCS, .C), (.BEQ, .Z), (.BNE, .Z), (.BMI, .N), (.BPL, .N), (.BVC, .V), (.BVS, .V)])
      (len : 2 = i.length)
  | jmpAbs (a : Addr) (eq : i = .jmpAbs a)
  | jmpInd (a : Addr) (eq : i = .jmpInd a)
  | jsr (a : Addr) (eq : i = .jsr a)
  | rts (eq : i = .rts)
  | pha (eq : i = .pha)
  | php (eq : i = .php)
  | pla (eq : i = .pla)
  | plp (eq : i = .plp)
  | txs (eq : i = .txs)
  | brk (eq : i = .brk)
  | nop (eq : i = .nop)
  | rti (eq : i = .rti)

/-- Every instruction has its shape. -/
theorem shape (i : Instr) : Shape i := by
  cases i with
  | brk => exact .brk rfl
  | oraIzx a => exact .logic _ _ (fun _ => rfl) (by simp [Instr.mnemonic]) rfl
  | oraZp a => exact .logic _ _ (fun _ => rfl) (by simp [Instr.mnemonic]) rfl
  | aslZp a => exact .shiftMem _ _ (fun _ => rfl) (by simp [Instr.mnemonic]) (by simp [Instr.mode]) rfl
  | php => exact .php rfl
  | oraImm a => exact .logic _ _ (fun _ => rfl) (by simp [Instr.mnemonic]) rfl
  | aslAcc => exact .shiftAcc _ (fun _ => rfl) (by simp [Instr.mnemonic]) rfl rfl
  | oraAbs a => exact .logic _ _ (fun _ => rfl) (by simp [Instr.mnemonic]) rfl
  | aslAbs a => exact .shiftMem _ _ (fun _ => rfl) (by simp [Instr.mnemonic]) (by simp [Instr.mode]) rfl
  | bpl a => exact .branch .N _ _ (fun _ => rfl) (by simp [Instr.mnemonic]) rfl
  | oraIzy a => exact .logic _ _ (fun _ => rfl) (by simp [Instr.mnemonic]) rfl
  | oraZpx a => exact .logic _ _ (fun _ => rfl) (by simp [Instr.mnemonic]) rfl
  | aslZpx a => exact .shiftMem _ _ (fun _ => rfl) (by simp [Instr.mnemonic]) (by simp [Instr.mode]) rfl
  | clc => exact .flagWrite .C _ (fun _ => rfl) (by simp [Instr.mnemonic]) rfl
  | oraAby a => exact .logic _ _ (fun _ => rfl) (by simp [Instr.mnemonic]) rfl
  | oraAbx a => exact .logic _ _ (fun _ => rfl) (by simp [Instr.mnemonic]) rfl
  | aslAbx a => exact .shiftMem _ _ (fun _ => rfl) (by simp [Instr.mnemonic]) (by simp [Instr.mode]) rfl
  | jsr a => exact .jsr _ rfl
  | andIzx a => exact .logic _ _ (fun _ => rfl) (by simp [Instr.mnemonic]) rfl
  | bitZp a => exact .bit _ (fun _ => rfl) (by simp [Instr.mnemonic]) rfl
  | andZp a => exact .logic _ _ (fun _ => rfl) (by simp [Instr.mnemonic]) rfl
  | rolZp a => exact .shiftMem _ _ (fun _ => rfl) (by simp [Instr.mnemonic]) (by simp [Instr.mode]) rfl
  | plp => exact .plp rfl
  | andImm a => exact .logic _ _ (fun _ => rfl) (by simp [Instr.mnemonic]) rfl
  | rolAcc => exact .shiftAcc _ (fun _ => rfl) (by simp [Instr.mnemonic]) rfl rfl
  | bitAbs a => exact .bit _ (fun _ => rfl) (by simp [Instr.mnemonic]) rfl
  | andAbs a => exact .logic _ _ (fun _ => rfl) (by simp [Instr.mnemonic]) rfl
  | rolAbs a => exact .shiftMem _ _ (fun _ => rfl) (by simp [Instr.mnemonic]) (by simp [Instr.mode]) rfl
  | bmi a => exact .branch .N _ _ (fun _ => rfl) (by simp [Instr.mnemonic]) rfl
  | andIzy a => exact .logic _ _ (fun _ => rfl) (by simp [Instr.mnemonic]) rfl
  | andZpx a => exact .logic _ _ (fun _ => rfl) (by simp [Instr.mnemonic]) rfl
  | rolZpx a => exact .shiftMem _ _ (fun _ => rfl) (by simp [Instr.mnemonic]) (by simp [Instr.mode]) rfl
  | sec => exact .flagWrite .C _ (fun _ => rfl) (by simp [Instr.mnemonic]) rfl
  | andAby a => exact .logic _ _ (fun _ => rfl) (by simp [Instr.mnemonic]) rfl
  | andAbx a => exact .logic _ _ (fun _ => rfl) (by simp [Instr.mnemonic]) rfl
  | rolAbx a => exact .shiftMem _ _ (fun _ => rfl) (by simp [Instr.mnemonic]) (by simp [Instr.mode]) rfl
  | rti => exact .rti rfl
  | eorIzx a => exact .logic _ _ (fun _ => rfl) (by simp [Instr.mnemonic]) rfl
  | eorZp a => exact .logic _ _ (fun _ => rfl) (by simp [Instr.mnemonic]) rfl
  | lsrZp a => exact .shiftMem _ _ (fun _ => rfl) (by simp [Instr.mnemonic]) (by simp [Instr.mode]) rfl
  | pha => exact .pha rfl
  | eorImm a => exact .logic _ _ (fun _ => rfl) (by simp [Instr.mnemonic]) rfl
  | lsrAcc => exact .shiftAcc _ (fun _ => rfl) (by simp [Instr.mnemonic]) rfl rfl
  | jmpAbs a => exact .jmpAbs _ rfl
  | eorAbs a => exact .logic _ _ (fun _ => rfl) (by simp [Instr.mnemonic]) rfl
  | lsrAbs a => exact .shiftMem _ _ (fun _ => rfl) (by simp [Instr.mnemonic]) (by simp [Instr.mode]) rfl
  | bvc a => exact .branch .V _ _ (fun _ => rfl) (by simp [Instr.mnemonic]) rfl
  | eorIzy a => exact .logic _ _ (fun _ => rfl) (by simp [Instr.mnemonic]) rfl
  | eorZpx a => exact .logic _ _ (fun _ => rfl) (by simp [Instr.mnemonic]) rfl
  | lsrZpx a => exact .shiftMem _ _ (fun _ => rfl) (by simp [Instr.mnemonic]) (by simp [Instr.mode]) rfl
  | cli => exact .flagWrite .I _ (fun _ => rfl) (by simp [Instr.mnemonic]) rfl
  | eorAby a => exact .logic _ _ (fun _ => rfl) (by simp [Instr.mnemonic]) rfl
  | eorAbx a => exact .logic _ _ (fun _ => rfl) (by simp [Instr.mnemonic]) rfl
  | lsrAbx a => exact .shiftMem _ _ (fun _ => rfl) (by simp [Instr.mnemonic]) (by simp [Instr.mode]) rfl
  | rts => exact .rts rfl
  | adcIzx a => exact .arith _ _ (fun _ => rfl) (by simp [Instr.mnemonic]) rfl
  | adcZp a => exact .arith _ _ (fun _ => rfl) (by simp [Instr.mnemonic]) rfl
  | rorZp a => exact .shiftMem _ _ (fun _ => rfl) (by simp [Instr.mnemonic]) (by simp [Instr.mode]) rfl
  | pla => exact .pla rfl
  | adcImm a => exact .arith _ _ (fun _ => rfl) (by simp [Instr.mnemonic]) rfl
  | rorAcc => exact .shiftAcc _ (fun _ => rfl) (by simp [Instr.mnemonic]) rfl rfl
  | jmpInd a => exact .jmpInd _ rfl
  | adcAbs a => exact .arith _ _ (fun _ => rfl) (by simp [Instr.mnemonic]) rfl
  | rorAbs a => exact .shiftMem _ _ (fun _ => rfl) (by simp [Instr.mnemonic]) (by simp [Instr.mode]) rfl
  | bvs a => exact .branch .V _ _ (fun _ => rfl) (by simp [Instr.mnemonic]) rfl
  | adcIzy a => exact .arith _ _ (fun _ => rfl) (by simp [Instr.mnemonic]) rfl
  | adcZpx a => exact .arith _ _ (fun _ => rfl) (by simp [Instr.mnemonic]) rfl
  | rorZpx a => exact .shiftMem _ _ (fun _ => rfl) (by simp [Instr.mnemonic]) (by simp [Instr.mode]) rfl
  | sei => exact .flagWrite .I _ (fun _ => rfl) (by simp [Instr.mnemonic]) rfl
  | adcAby a => exact .arith _ _ (fun _ => rfl) (by simp [Instr.mnemonic]) rfl
  | adcAbx a => exact .arith _ _ (fun _ => rfl) (by simp [Instr.mnemonic]) rfl
  | rorAbx a => exact .shiftMem _ _ (fun _ => rfl) (by simp [Instr.mnemonic]) (by simp [Instr.mode]) rfl
  | staIzx a => exact .store State.acc _ (fun _ => rfl) (by simp [Instr.mnemonic]) (fun _ _ => rfl) rfl
  | styZp a => exact .store State.iy _ (fun _ => rfl) (by simp [Instr.mnemonic]) (fun _ _ => rfl) rfl
  | staZp a => exact .store State.acc _ (fun _ => rfl) (by simp [Instr.mnemonic]) (fun _ _ => rfl) rfl
  | stxZp a => exact .store State.ix _ (fun _ => rfl) (by simp [Instr.mnemonic]) (fun _ _ => rfl) rfl
  | dey => exact .toIy (fun s => aluDec s.iy) (fun _ => rfl) (by simp [Instr.mnemonic]) (fun _ _ => rfl) rfl
  | txa => exact .toAcc State.ix (fun _ => rfl) (by simp [Instr.mnemonic]) (fun _ _ => rfl) rfl
  | styAbs a => exact .store State.iy _ (fun _ => rfl) (by simp [Instr.mnemonic]) (fun _ _ => rfl) rfl
  | staAbs a => exact .store State.acc _ (fun _ => rfl) (by simp [Instr.mnemonic]) (fun _ _ => rfl) rfl
  | stxAbs a => exact .store State.ix _ (fun _ => rfl) (by simp [Instr.mnemonic]) (fun _ _ => rfl) rfl
  | bcc a => exact .branch .C _ _ (fun _ => rfl) (by simp [Instr.mnemonic]) rfl
  | staIzy a => exact .store State.acc _ (fun _ => rfl) (by simp [Instr.mnemonic]) (fun _ _ => rfl) rfl
  | styZpx a => exact .store State.iy _ (fun _ => rfl) (by simp [Instr.mnemonic]) (fun _ _ => rfl) rfl
  | staZpx a => exact .store State.acc _ (fun _ => rfl) (by simp [Instr.mnemonic]) (fun _ _ => rfl) rfl
  | stxZpy a => exact .store State.ix _ (fun _ => rfl) (by simp [Instr.mnemonic]) (fun _ _ => rfl) rfl
  | tya => exact .toAcc State.iy (fun _ => rfl) (by simp [Instr.mnemonic]) (fun _ _ => rfl) rfl
  | staAby a => exact .store State.acc _ (fun _ => rfl) (by simp [Instr.mnemonic]) (fun _ _ => rfl) rfl
  | txs => exact .txs rfl
  | staAbx a => exact .store State.acc _ (fun _ => rfl) (by simp [Instr.mnemonic]) (fun _ _ => rfl) rfl
  | ldyImm a => exact .loadIy _ (fun _ => rfl) (by simp [Instr.mnemonic]) rfl
  | ldaIzx a => exact .loadAcc _ (fun _ => rfl) (by simp [Instr.mnemonic]) rfl
  | ldxImm a => exact .loadIx _ (fun _ => rfl) (by simp [Instr.mnemonic]) rfl
  | ldyZp a => exact .loadIy _ (fun _ => rfl) (by simp [Instr.mnemonic]) rfl
  | ldaZp a => exact .loadAcc _ (fun _ => rfl) (by simp [Instr.mnemonic]) rfl
  | ldxZp a => exact .loadIx _ (fun _ => rfl) (by simp [Instr.mnemonic]) rfl
  | tay => exact .toIy State.acc (fun _ => rfl) (by simp [Instr.mnemonic]) (fun _ _ => rfl) rfl
  | ldaImm a => exact .loadAcc _ (fun _ => rfl) (by simp [Instr.mnemonic]) rfl
  | tax => exact .toIx State.acc (fun _ => rfl) (by simp [Instr.mnemonic]) (fun _ _ => rfl) rfl
  | ldyAbs a => exact .loadIy _ (fun _ => rfl) (by simp [Instr.mnemonic]) rfl
  | ldaAbs a => exact .loadAcc _ (fun _ => rfl) (by simp [Instr.mnemonic]) rfl
  | ldxAbs a => exact .loadIx _ (fun _ => rfl) (by simp [Instr.mnemonic]) rfl
  | bcs a => exact .branch .C _ _ (fun _ => rfl) (by simp [Instr.mnemonic]) rfl
  | ldaIzy a => exact .loadAcc _ (fun _ => rfl) (by simp [Instr.mnemonic]) rfl
  | ldyZpx a => exact .loadIy _ (fun _ => rfl) (by simp [Instr.mnemonic]) rfl
  | ldaZpx a => exact .loadAcc _ (fun _ => rfl) (by simp [Instr.mnemonic]) rfl
  | ldxZpy a => exact .loadIx _ (fun _ => rfl) (by simp [Instr.mnemonic]) rfl
  | clv => exact .flagWrite .V _ (fun _ => rfl) (by simp [Instr.mnemonic]) rfl
  | ldaAby a => exact .loadAcc _ (fun _ => rfl) (by simp [Instr.mnemonic]) rfl
  | tsx => exact .toIx State.sp (fun _ => rfl) (by simp [Instr.mnemonic]) (fun _ _ => rfl) rfl
  | ldyAbx a => exact .loadIy _ (fun _ => rfl) (by simp [Instr.mnemonic]) rfl
  | ldaAbx a => exact .loadAcc _ (fun _ => rfl) (by simp [Instr.mnemonic]) rfl
  | ldxAby a => exact .loadIx _ (fun _ => rfl) (by simp [Instr.mnemonic]) rfl
  | cpyImm a => exact .compare State.iy _ (fun _ => rfl) (by simp [Instr.mnemonic]) (fun _ _ => rfl) rfl
  | cmpIzx a => exact .compare State.acc _ (fun _ => rfl) (by simp [Instr.mnemonic]) (fun _ _ => rfl) rfl
  | cpyZp a => exact .compare State.iy _ (fun _ => rfl) (by simp [Instr.mnemonic]) (fun _ _ => rfl) rfl
  | cmpZp a => exact .compare State.acc _ (fun _ => rfl) (by simp [Instr.mnemonic]) (fun _ _ => rfl) rfl
  | decZp a => exact .bump _ _ (fun _ => rfl) (by simp [Instr.mnemonic]) rfl
  | iny => exact .toIy (fun s => aluInc s.iy) (fun _ => rfl) (by simp [Instr.mnemonic]) (fun _ _ => rfl) rfl
  | cmpImm a => exact .compare State.acc _ (fun _ => rfl) (by simp [Instr.mnemonic]) (fun _ _ => rfl) rfl
  | dex => exact .toIx (fun s => aluDec s.ix) (fun _ => rfl) (by simp [Instr.mnemonic]) (fun _ _ => rfl) rfl
  | cpyAbs a => exact .compare State.iy _ (fun _ => rfl) (by simp [Instr.mnemonic]) (fun _ _ => rfl) rfl
  | cmpAbs a => exact .compare State.acc _ (fun _ => rfl) (by simp [Instr.mnemonic]) (fun _ _ => rfl) rfl
  | decAbs a => exact .bump _ _ (fun _ => rfl) (by simp [Instr.mnemonic]) rfl
  | bne a => exact .branch .Z _ _ (fun _ => rfl) (by simp [Instr.mnemonic]) rfl
  | cmpIzy a => exact .compare State.acc _ (fun _ => rfl) (by simp [Instr.mnemonic]) (fun _ _ => rfl) rfl
  | cmpZpx a => exact .compare State.acc _ (fun _ => rfl) (by simp [Instr.mnemonic]) (fun _ _ => rfl) rfl
  | decZpx a => exact .bump _ _ (fun _ => rfl) (by simp [Instr.mnemonic]) rfl
  | cld => exact .flagWrite .D _ (fun _ => rfl) (by simp [Instr.mnemonic]) rfl
  | cmpAby a => exact .compare State.acc _ (fun _ => rfl) (by simp [Instr.mnemonic]) (fun _ _ => rfl) rfl
  | cmpAbx a => exact .compare State.acc _ (fun _ => rfl) (by simp [Instr.mnemonic]) (fun _ _ => rfl) rfl
  | decAbx a => exact .bump _ _ (fun _ => rfl) (by simp [Instr.mnemonic]) rfl
  | cpxImm a => exact .compare State.ix _ (fun _ => rfl) (by simp [Instr.mnemonic]) (fun _ _ => rfl) rfl
  | sbcIzx a => exact .arith _ _ (fun _ => rfl) (by simp [Instr.mnemonic]) rfl
  | cpxZp a => exact .compare State.ix _ (fun _ => rfl) (by simp [Instr.mnemonic]) (fun _ _ => rfl) rfl
  | sbcZp a => exact .arith _ _ (fun _ => rfl) (by simp [Instr.mnemonic]) rfl
  | incZp a => exact .bump _ _ (fun _ => rfl) (by simp [Instr.mnemonic]) rfl
  | inx => exact .toIx (fun s => aluInc s.ix) (fun _ => rfl) (by simp [Instr.mnemonic]) (fun _ _ => rfl) rfl
  | sbcImm a => exact .arith _ _ (fun _ => rfl) (by simp [Instr.mnemonic]) rfl
  | nop => exact .nop rfl
  | cpxAbs a => exact .compare State.ix _ (fun _ => rfl) (by simp [Instr.mnemonic]) (fun _ _ => rfl) rfl
  | sbcAbs a => exact .arith _ _ (fun _ => rfl) (by simp [Instr.mnemonic]) rfl
  | incAbs a => exact .bump _ _ (fun _ => rfl) (by simp [Instr.mnemonic]) rfl
  | beq a => exact .branch .Z _ _ (fun _ => rfl) (by simp [Instr.mnemonic]) rfl
  | sbcIzy a => exact .arith _ _ (fun _ => rfl) (by simp [Instr.mnemonic]) rfl
  | sbcZpx a => exact .arith _ _ (fun _ => rfl) (by simp [Instr.mnemonic]) rfl
  | incZpx a => exact .bump _ _ (fun _ => rfl) (by simp [Instr.mnemonic]) rfl
  | sed => exact .flagWrite .D _ (fun _ => rfl) (by simp [Instr.mnemonic]) rfl
  | sbcAby a => exact .arith _ _ (fun _ => rfl) (by simp [Instr.mnemonic]) rfl
  | sbcAbx a => exact .arith _ _ (fun _ => rfl) (by simp [Instr.mnemonic]) rfl
  | incAbx a => exact .bump _ _ (fun _ => rfl) (by simp [Instr.mnemonic]) rfl

/-- A branch changes `pc` only. -/
theorem branchOn_next (f : Flag) (want : Bool) (d : Byte) (s : State) :
    ∃ target, branchOn f want d s = .next (s.setPc target) := by
  unfold branchOn
  split <;> exact ⟨_, rfl⟩

/-- JMP indirect anywhere but at 0xFFFF: the 16-bit value stored at the pointer (`42_branch_jump.md` R181). -/
theorem execJmpInd_next (a : Addr) (s : State) (h : a ≠ 0xFFFF) : execJmpInd a s = .next (s.setPc (s.read16 a)) := by
  have below : a.toNat + 1 < Config.memSize := by
    have := a.isLt
    have : a.toNat ≠ 65535 := fun e => h (BitVec.eq_of_toNat_eq e)
    show _ < 65536
    omega
  have next : (a + 1).toNat = a.toNat + 1 := by
    rw [BitVec.toNat_add]
    exact Nat.mod_eq_of_lt below
  simp only [execJmpInd, State.indirectTarget, Config.params, fetch_below s below, State.read16, State.read, next]
  rfl

end Sys2Proof.Machine
end

