-- ==== Sys2Proof/Tests/Slice0.lean ====
section
/-! SUPPORT. The model's own tests: terms the well-formedness checks refuse, one word for each of the 151 instructions as the
"Encodings" lines of the spec write it, single steps with the results of the vectors of `95_test_vectors.md`, and
for each obligation with hypotheses a witness that meets them. -/

namespace Sys2Proof.Tests

open Sys2Proof Sys2Proof.Machine

/-! ### Helpers -/

/-- The state after `Reset` with `bytes` placed from `pc` on and `pc` there. -/
def placed (pc : Addr) (bytes : List Byte) : State := (State.reset.storeBytes bytes pc.toNat).setPc pc

/-- What `view` shows of the state after one step; none where the step does not answer a next state. -/
def after {α : Type} (s : State) (view : State → α) : Option α := (nextOf (step s)).map view

/-- The fault of one step. -/
def faultOfStep (s : State) : Option Fault := faultOf (step s)

/-- The instruction the decoder reads from bytes. -/
def decoded (bytes : List Byte) : Option Instr :=
  match decode bytes with
  | .ok (i, _) => some i
  | .error _ => none

/-! ### Well-formedness: what each check refuses -/

/-- A 2-byte instruction does not fit at 0xFFFF (`60_exceptions.md` R302; vector X3). -/
theorem test_wf_no_room_for_two : (Instr.ldaImm 0x05).fitsAt 0xFFFF = false := by decide
/-- A 3-byte instruction does not fit at 0xFFFE (vector X4) and fits exactly at 0xFFFD (vector X6). -/
theorem test_wf_no_room_for_three :
    (Instr.ldaAbs 0x1234).fitsAt 0xFFFE = false ∧ (Instr.jmpAbs 0x0200).fitsAt 0xFFFD = true := by decide
/-- Three bytes do not fit at 0xFFFE (vector H3), two do (vector H2), none do at 0xFFFF (vector H4). -/
theorem test_wf_load : loadFits 3 0xFFFE = false ∧ loadFits 2 0xFFFE = true ∧ loadFits 0 0xFFFF = true := by decide
/-- An entry with another length than its format's is refused (`30_encoding.md` R82). -/
theorem test_wf_entry_length : TableEntry.lengthFits ⟨.LDA, .IMM, 3, 2, [.N, .Z]⟩ = false := by decide
/-- A table with an opcode twice is refused (`30_encoding.md` R85). -/
theorem test_wf_table_twice :
    tableWellFormed [row 0xEA .NOP .IMP 1 2 [], row 0xEA .NOP .IMP 1 2 []] = false := by decide
/-- A table with a row of a wrong length is refused. -/
theorem test_wf_table_length : tableWellFormed [row 0x20 .JSR .ABS 2 6 []] = false := by decide
/-- Memory with an entry 0x00, with entries that do not rise, or with an address past the end is not canonical. -/
theorem test_wf_memory :
    Memory.wf [(5, 0x00)] = false ∧ Memory.wf [(5, 0x01), (5, 0x02)] = false ∧ Memory.wf [(65536, 0x01)] = false ∧
    Memory.wf [(0, 0x01), (65535, 0x02)] = true := by decide

/-! ### Decoding: a word for every instruction (`30_encoding.md` R81, R93; the "Encodings" lines) -/

theorem test_decode_adc :
    decoded [0x61, 0x9A] = some (.adcIzx 0x9A) ∧
    decoded [0x65, 0x9A] = some (.adcZp 0x9A) ∧
    decoded [0x69, 0x9A] = some (.adcImm 0x9A) ∧
    decoded [0x6D, 0x34, 0x12] = some (.adcAbs 0x1234) ∧
    decoded [0x71, 0x9A] = some (.adcIzy 0x9A) ∧
    decoded [0x75, 0x9A] = some (.adcZpx 0x9A) ∧
    decoded [0x79, 0x34, 0x12] = some (.adcAby 0x1234) ∧
    decoded [0x7D, 0x34, 0x12] = some (.adcAbx 0x1234) := by
  decide
theorem test_decode_and :
    decoded [0x21, 0x9A] = some (.andIzx 0x9A) ∧
    decoded [0x25, 0x9A] = some (.andZp 0x9A) ∧
    decoded [0x29, 0x9A] = some (.andImm 0x9A) ∧
    decoded [0x2D, 0x34, 0x12] = some (.andAbs 0x1234) ∧
    decoded [0x31, 0x9A] = some (.andIzy 0x9A) ∧
    decoded [0x35, 0x9A] = some (.andZpx 0x9A) ∧
    decoded [0x39, 0x34, 0x12] = some (.andAby 0x1234) ∧
    decoded [0x3D, 0x34, 0x12] = some (.andAbx 0x1234) := by
  decide
theorem test_decode_asl :
    decoded [0x06, 0x9A] = some (.aslZp 0x9A) ∧
    decoded [0x0A] = some .aslAcc ∧
    decoded [0x0E, 0x34, 0x12] = some (.aslAbs 0x1234) ∧
    decoded [0x16, 0x9A] = some (.aslZpx 0x9A) ∧
    decoded [0x1E, 0x34, 0x12] = some (.aslAbx 0x1234) := by
  decide
theorem test_decode_bcc : decoded [0x90, 0x9A] = some (.bcc 0x9A) := by decide
theorem test_decode_bcs : decoded [0xB0, 0x9A] = some (.bcs 0x9A) := by decide
theorem test_decode_beq : decoded [0xF0, 0x9A] = some (.beq 0x9A) := by decide
theorem test_decode_bit :
    decoded [0x24, 0x9A] = some (.bitZp 0x9A) ∧
    decoded [0x2C, 0x34, 0x12] = some (.bitAbs 0x1234) := by
  decide
theorem test_decode_bmi : decoded [0x30, 0x9A] = some (.bmi 0x9A) := by decide
theorem test_decode_bne : decoded [0xD0, 0x9A] = some (.bne 0x9A) := by decide
theorem test_decode_bpl : decoded [0x10, 0x9A] = some (.bpl 0x9A) := by decide
theorem test_decode_brk : decoded [0x00] = some .brk := by decide
theorem test_decode_bvc : decoded [0x50, 0x9A] = some (.bvc 0x9A) := by decide
theorem test_decode_bvs : decoded [0x70, 0x9A] = some (.bvs 0x9A) := by decide
theorem test_decode_clc : decoded [0x18] = some .clc := by decide
theorem test_decode_cld : decoded [0xD8] = some .cld := by decide
theorem test_decode_cli : decoded [0x58] = some .cli := by decide
theorem test_decode_clv : decoded [0xB8] = some .clv := by decide
theorem test_decode_cmp :
    decoded [0xC1, 0x9A] = some (.cmpIzx 0x9A) ∧
    decoded [0xC5, 0x9A] = some (.cmpZp 0x9A) ∧
    decoded [0xC9, 0x9A] = some (.cmpImm 0x9A) ∧
    decoded [0xCD, 0x34, 0x12] = some (.cmpAbs 0x1234) ∧
    decoded [0xD1, 0x9A] = some (.cmpIzy 0x9A) ∧
    decoded [0xD5, 0x9A] = some (.cmpZpx 0x9A) ∧
    decoded [0xD9, 0x34, 0x12] = some (.cmpAby 0x1234) ∧
    decoded [0xDD, 0x34, 0x12] = some (.cmpAbx 0x1234) := by
  decide
theorem test_decode_cpx :
    decoded [0xE0, 0x9A] = some (.cpxImm 0x9A) ∧
    decoded [0xE4, 0x9A] = some (.cpxZp 0x9A) ∧
    decoded [0xEC, 0x34, 0x12] = some (.cpxAbs 0x1234) := by
  decide
theorem test_decode_cpy :
    decoded [0xC0, 0x9A] = some (.cpyImm 0x9A) ∧
    decoded [0xC4, 0x9A] = some (.cpyZp 0x9A) ∧
    decoded [0xCC, 0x34, 0x12] = some (.cpyAbs 0x1234) := by
  decide
theorem test_decode_dec :
    decoded [0xC6, 0x9A] = some (.decZp 0x9A) ∧
    decoded [0xCE, 0x34, 0x12] = some (.decAbs 0x1234) ∧
    decoded [0xD6, 0x9A] = some (.decZpx 0x9A) ∧
    decoded [0xDE, 0x34, 0x12] = some (.decAbx 0x1234) := by
  decide
theorem test_decode_dex : decoded [0xCA] = some .dex := by decide
theorem test_decode_dey : decoded [0x88] = some .dey := by decide
theorem test_decode_eor :
    decoded [0x41, 0x9A] = some (.eorIzx 0x9A) ∧
    decoded [0x45, 0x9A] = some (.eorZp 0x9A) ∧
    decoded [0x49, 0x9A] = some (.eorImm 0x9A) ∧
    decoded [0x4D, 0x34, 0x12] = some (.eorAbs 0x1234) ∧
    decoded [0x51, 0x9A] = some (.eorIzy 0x9A) ∧
    decoded [0x55, 0x9A] = some (.eorZpx 0x9A) ∧
    decoded [0x59, 0x34, 0x12] = some (.eorAby 0x1234) ∧
    decoded [0x5D, 0x34, 0x12] = some (.eorAbx 0x1234) := by
  decide
theorem test_decode_inc :
    decoded [0xE6, 0x9A] = some (.incZp 0x9A) ∧
    decoded [0xEE, 0x34, 0x12] = some (.incAbs 0x1234) ∧
    decoded [0xF6, 0x9A] = some (.incZpx 0x9A) ∧
    decoded [0xFE, 0x34, 0x12] = some (.incAbx 0x1234) := by
  decide
theorem test_decode_inx : decoded [0xE8] = some .inx := by decide
theorem test_decode_iny : decoded [0xC8] = some .iny := by decide
theorem test_decode_jmp :
    decoded [0x4C, 0x34, 0x12] = some (.jmpAbs 0x1234) ∧
    decoded [0x6C, 0x34, 0x12] = some (.jmpInd 0x1234) := by
  decide
theorem test_decode_jsr : decoded [0x20, 0x34, 0x12] = some (.jsr 0x1234) := by decide
theorem test_decode_lda :
    decoded [0xA1, 0x9A] = some (.ldaIzx 0x9A) ∧
    decoded [0xA5, 0x9A] = some (.ldaZp 0x9A) ∧
    decoded [0xA9, 0x9A] = some (.ldaImm 0x9A) ∧
    decoded [0xAD, 0x34, 0x12] = some (.ldaAbs 0x1234) ∧
    decoded [0xB1, 0x9A] = some (.ldaIzy 0x9A) ∧
    decoded [0xB5, 0x9A] = some (.ldaZpx 0x9A) ∧
    decoded [0xB9, 0x34, 0x12] = some (.ldaAby 0x1234) ∧
    decoded [0xBD, 0x34, 0x12] = some (.ldaAbx 0x1234) := by
  decide
theorem test_decode_ldx :
    decoded [0xA2, 0x9A] = some (.ldxImm 0x9A) ∧
    decoded [0xA6, 0x9A] = some (.ldxZp 0x9A) ∧
    decoded [0xAE, 0x34, 0x12] = some (.ldxAbs 0x1234) ∧
    decoded [0xB6, 0x9A] = some (.ldxZpy 0x9A) ∧
    decoded [0xBE, 0x34, 0x12] = some (.ldxAby 0x1234) := by
  decide
theorem test_decode_ldy :
    decoded [0xA0, 0x9A] = some (.ldyImm 0x9A) ∧
    decoded [0xA4, 0x9A] = some (.ldyZp 0x9A) ∧
    decoded [0xAC, 0x34, 0x12] = some (.ldyAbs 0x1234) ∧
    decoded [0xB4, 0x9A] = some (.ldyZpx 0x9A) ∧
    decoded [0xBC, 0x34, 0x12] = some (.ldyAbx 0x1234) := by
  decide
theorem test_decode_lsr :
    decoded [0x46, 0x9A] = some (.lsrZp 0x9A) ∧
    decoded [0x4A] = some .lsrAcc ∧
    decoded [0x4E, 0x34, 0x12] = some (.lsrAbs 0x1234) ∧
    decoded [0x56, 0x9A] = some (.lsrZpx 0x9A) ∧
    decoded [0x5E, 0x34, 0x12] = some (.lsrAbx 0x1234) := by
  decide
theorem test_decode_nop : decoded [0xEA] = some .nop := by decide
theorem test_decode_ora :
    decoded [0x01, 0x9A] = some (.oraIzx 0x9A) ∧
    decoded [0x05, 0x9A] = some (.oraZp 0x9A) ∧
    decoded [0x09, 0x9A] = some (.oraImm 0x9A) ∧
    decoded [0x0D, 0x34, 0x12] = some (.oraAbs 0x1234) ∧
    decoded [0x11, 0x9A] = some (.oraIzy 0x9A) ∧
    decoded [0x15, 0x9A] = some (.oraZpx 0x9A) ∧
    decoded [0x19, 0x34, 0x12] = some (.oraAby 0x1234) ∧
    decoded [0x1D, 0x34, 0x12] = some (.oraAbx 0x1234) := by
  decide
theorem test_decode_pha : decoded [0x48] = some .pha := by decide
theorem test_decode_php : decoded [0x08] = some .php := by decide
theorem test_decode_pla : decoded [0x68] = some .pla := by decide
theorem test_decode_plp : decoded [0x28] = some .plp := by decide
theorem test_decode_rol :
    decoded [0x26, 0x9A] = some (.rolZp 0x9A) ∧
    decoded [0x2A] = some .rolAcc ∧
    decoded [0x2E, 0x34, 0x12] = some (.rolAbs 0x1234) ∧
    decoded [0x36, 0x9A] = some (.rolZpx 0x9A) ∧
    decoded [0x3E, 0x34, 0x12] = some (.rolAbx 0x1234) := by
  decide
theorem test_decode_ror :
    decoded [0x66, 0x9A] = some (.rorZp 0x9A) ∧
    decoded [0x6A] = some .rorAcc ∧
    decoded [0x6E, 0x34, 0x12] = some (.rorAbs 0x1234) ∧
    decoded [0x76, 0x9A] = some (.rorZpx 0x9A) ∧
    decoded [0x7E, 0x34, 0x12] = some (.rorAbx 0x1234) := by
  decide
theorem test_decode_rti : decoded [0x40] = some .rti := by decide
theorem test_decode_rts : decoded [0x60] = some .rts := by decide
theorem test_decode_sbc :
    decoded [0xE1, 0x9A] = some (.sbcIzx 0x9A) ∧
    decoded [0xE5, 0x9A] = some (.sbcZp 0x9A) ∧
    decoded [0xE9, 0x9A] = some (.sbcImm 0x9A) ∧
    decoded [0xED, 0x34, 0x12] = some (.sbcAbs 0x1234) ∧
    decoded [0xF1, 0x9A] = some (.sbcIzy 0x9A) ∧
    decoded [0xF5, 0x9A] = some (.sbcZpx 0x9A) ∧
    decoded [0xF9, 0x34, 0x12] = some (.sbcAby 0x1234) ∧
    decoded [0xFD, 0x34, 0x12] = some (.sbcAbx 0x1234) := by
  decide
theorem test_decode_sec : decoded [0x38] = some .sec := by decide
theorem test_decode_sed : decoded [0xF8] = some .sed := by decide
theorem test_decode_sei : decoded [0x78] = some .sei := by decide
theorem test_decode_sta :
    decoded [0x81, 0x9A] = some (.staIzx 0x9A) ∧
    decoded [0x85, 0x9A] = some (.staZp 0x9A) ∧
    decoded [0x8D, 0x34, 0x12] = some (.staAbs 0x1234) ∧
    decoded [0x91, 0x9A] = some (.staIzy 0x9A) ∧
    decoded [0x95, 0x9A] = some (.staZpx 0x9A) ∧
    decoded [0x99, 0x34, 0x12] = some (.staAby 0x1234) ∧
    decoded [0x9D, 0x34, 0x12] = some (.staAbx 0x1234) := by
  decide
theorem test_decode_stx :
    decoded [0x86, 0x9A] = some (.stxZp 0x9A) ∧
    decoded [0x8E, 0x34, 0x12] = some (.stxAbs 0x1234) ∧
    decoded [0x96, 0x9A] = some (.stxZpy 0x9A) := by
  decide
theorem test_decode_sty :
    decoded [0x84, 0x9A] = some (.styZp 0x9A) ∧
    decoded [0x8C, 0x34, 0x12] = some (.styAbs 0x1234) ∧
    decoded [0x94, 0x9A] = some (.styZpx 0x9A) := by
  decide
theorem test_decode_tax : decoded [0xAA] = some .tax := by decide
theorem test_decode_tay : decoded [0xA8] = some .tay := by decide
theorem test_decode_tsx : decoded [0xBA] = some .tsx := by decide
theorem test_decode_txa : decoded [0x8A] = some .txa := by decide
theorem test_decode_txs : decoded [0x9A] = some .txs := by decide
theorem test_decode_tya : decoded [0x98] = some .tya := by decide

/-- An undefined opcode is rejected by name, and so are a lone opcode that wants operands and no byte at all. -/
theorem test_decode_rejects :
    decode [0x02, 0x00, 0x00] = .error (.undefinedOpcode 0x02) ∧ decode [0xAD, 0x34] = .error (.truncated 0xAD 2) ∧
    decode [] = .error .noBytes := ⟨rfl, rfl, rfl⟩

/-- The opcode table's numbering: the first byte is bits 7 to 0; operand bytes the table gives no bits are 0. -/
theorem test_table_word :
    decodeTableWord 24 0x12348D = some (.staAbs 0x1234) ∧ decodeTableWord 8 0x8D = some (.staAbs 0x0000) ∧
    decodeTableWord 8 0x02 = none := by decide

/-- `withFetchWord` places the instruction the next step runs. -/
theorem test_fetch_word :
    after (State.reset.withFetchWord 16 0x05A9) (fun t => (t.acc, t.pc, t.ir)) = some (0x05, 0x0002, 0xA9) := by decide

/-! ### One step: vectors of `95_test_vectors.md` -/

/-- Vector A4: ADC #$80. -/
theorem test_adc_A4 :
    after ((placed 0x0200 [0x69, 0x80]).setAcc 0x80) (fun t => (t.acc, t.pc, t.stat)) =
      some (0x00, 0x0202, 0x43) := by decide
/-- Vector A28: ADC $12F0,X. -/
theorem test_adc_A28 :
    after ((((placed 0x0200 [0x7D, 0xF0, 0x12]).setAcc 0x00).setIx 0x20).write 0x1310 0x80) (fun t => (t.acc, t.pc, t.stat)) =
      some (0x80, 0x0203, 0x80) := by decide
/-- Vector A12: SBC #$01. -/
theorem test_sbc_A12 :
    after (((placed 0x0200 [0xE9, 0x01]).setAcc 0x80).setStat 0x01) (fun t => (t.acc, t.pc, t.stat)) =
      some (0x7F, 0x0202, 0x41) := by decide
/-- Vector A16: SBC #$FF. -/
theorem test_sbc_A16 :
    after (((placed 0x0200 [0xE9, 0xFF]).setAcc 0x00).setStat 0x00) (fun t => (t.pc, t.stat)) =
      some (0x0202, 0x02) := by decide
/-- Vector A20: CMP #$01. -/
theorem test_cmp_A20 :
    after (((placed 0x0200 [0xC9, 0x01]).setAcc 0x80).setStat 0x40) (fun t => (t.pc, t.stat)) =
      some (0x0202, 0x41) := by decide
/-- Vector A21: CMP #$FF. -/
theorem test_cmp_A21 :
    after ((placed 0x0200 [0xC9, 0xFF]).setAcc 0x00) (fun t => (t.pc, t.stat)) =
      some (0x0202, 0x00) := by decide
/-- Vector A23: CPX $10. -/
theorem test_cpx_A23 :
    after (((placed 0x0200 [0xE4, 0x10]).setIx 0x00).write 0x0010 0x01) (fun t => (t.pc, t.stat)) =
      some (0x0202, 0x80) := by decide
/-- Vector A25: CPY $1234. -/
theorem test_cpy_A25 :
    after (((placed 0x0200 [0xCC, 0x34, 0x12]).setIy 0x7F).write 0x1234 0x80) (fun t => (t.pc, t.stat)) =
      some (0x0203, 0x80) := by decide
/-- Vector A24: CPY #$80. -/
theorem test_cpy_A24 :
    after (((placed 0x0200 [0xC0, 0x80]).setIy 0x80).setStat 0x80) (fun t => (t.pc, t.stat)) =
      some (0x0202, 0x03) := by decide
/-- Vector B3: ASL A. -/
theorem test_asl_B3 :
    after (((placed 0x0200 [0x0A]).setAcc 0x40).setStat 0x01) (fun t => (t.acc, t.pc, t.stat)) =
      some (0x80, 0x0201, 0x80) := by decide
/-- Vector B5: ASL $FF,X. -/
theorem test_asl_B5 :
    after (((placed 0x0200 [0x16, 0xFF]).setIx 0x02).write 0x0001 0x01) (fun t => (t.pc, t.stat, t.read 0x0001)) =
      some (0x0202, 0x00, 0x02) := by decide
/-- Vector B7: LSR A. -/
theorem test_lsr_B7 :
    after (((placed 0x0200 [0x4A]).setAcc 0xFF).setStat 0x01) (fun t => (t.acc, t.pc, t.stat)) =
      some (0x7F, 0x0201, 0x01) := by decide
/-- Vector B8: LSR $1234. -/
theorem test_lsr_B8 :
    after ((placed 0x0200 [0x4E, 0x34, 0x12]).write 0x1234 0x80) (fun t => (t.pc, t.stat, t.read 0x1234)) =
      some (0x0203, 0x00, 0x40) := by decide
/-- Vector B9: ROL A. -/
theorem test_rol_B9 :
    after (((placed 0x0200 [0x2A]).setAcc 0x80).setStat 0x01) (fun t => (t.acc, t.pc, t.stat)) =
      some (0x01, 0x0201, 0x01) := by decide
/-- Vector B12: ROL $10,X. -/
theorem test_rol_B12 :
    after ((((placed 0x0200 [0x36, 0x10]).setIx 0x05).setStat 0x01).write 0x0015 0x7F) (fun t => (t.pc, t.stat, t.read 0x0015)) =
      some (0x0202, 0x80, 0xFF) := by decide
/-- Vector B15: ROR A. -/
theorem test_ror_B15 :
    after (((placed 0x0200 [0x6A]).setAcc 0x02).setStat 0x01) (fun t => (t.acc, t.pc, t.stat)) =
      some (0x81, 0x0201, 0x80) := by decide
/-- Vector B16: ROR $12F0,X. -/
theorem test_ror_B16 :
    after ((((placed 0x0200 [0x7E, 0xF0, 0x12]).setIx 0x20).setStat 0x00).write 0x1310 0xFE) (fun t => (t.pc, t.stat, t.read 0x1310)) =
      some (0x0203, 0x00, 0x7F) := by decide
/-- Vector C5: BCC +127. -/
theorem test_bcc_C5 :
    after ((placed 0x0200 [0x90, 0x7F]).setStat 0x00) (fun t => (t.pc, t.stat)) =
      some (0x0281, 0x00) := by decide
/-- Vector C12: BCC +5. -/
theorem test_bcc_C12 :
    after ((placed 0x0200 [0x90, 0x05]).setStat 0x01) (fun t => (t.pc, t.stat)) =
      some (0x0202, 0x01) := by decide
/-- Vector C6: BCS +0. -/
theorem test_bcs_C6 :
    after ((placed 0x0200 [0xB0, 0x00]).setStat 0x01) (fun t => (t.pc, t.stat)) =
      some (0x0202, 0x01) := by decide
/-- Vector C1: BEQ +5. -/
theorem test_beq_C1 :
    after ((placed 0x0200 [0xF0, 0x05]).setStat 0x02) (fun t => (t.pc, t.stat)) =
      some (0x0207, 0x02) := by decide
/-- Vector C15: BEQ +5. -/
theorem test_beq_C15 :
    after ((placed 0xFFFE [0xF0, 0x05]).setStat 0x00) (fun t => (t.pc, t.stat)) =
      some (0x0000, 0x00) := by decide
/-- Vector C4: BNE -128. -/
theorem test_bne_C4 :
    after ((placed 0x0200 [0xD0, 0x80]).setStat 0x00) (fun t => (t.pc, t.stat)) =
      some (0x0182, 0x00) := by decide
/-- Vector C7: BMI -128. -/
theorem test_bmi_C7 :
    after ((placed 0x0010 [0x30, 0x80]).setStat 0x80) (fun t => (t.pc, t.stat)) =
      some (0xFF92, 0x80) := by decide
/-- Vector C13: BMI +5. -/
theorem test_bmi_C13 :
    after ((placed 0x0200 [0x30, 0x05]).setStat 0x7F) (fun t => (t.pc, t.stat)) =
      some (0x0202, 0x7F) := by decide
/-- Vector C8: BPL +16. -/
theorem test_bpl_C8 :
    after ((placed 0xFFF8 [0x10, 0x10]).setStat 0x00) (fun t => (t.pc, t.stat)) =
      some (0x000A, 0x00) := by decide
/-- Vector C14: BPL -4. -/
theorem test_bpl_C14 :
    after ((placed 0x0200 [0x10, 0xFC]).setStat 0x80) (fun t => (t.pc, t.stat)) =
      some (0x0202, 0x80) := by decide
/-- Vector C9: BVC +5. -/
theorem test_bvc_C9 :
    after ((placed 0x0200 [0x50, 0x05]).setStat 0xBF) (fun t => (t.pc, t.stat)) =
      some (0x0207, 0xBF) := by decide
/-- Vector C10: BVS +5. -/
theorem test_bvs_C10 :
    after ((placed 0x0200 [0x70, 0x05]).setStat 0xBF) (fun t => (t.pc, t.stat)) =
      some (0x0202, 0xBF) := by decide
/-- Vector C11: BVS +5. -/
theorem test_bvs_C11 :
    after ((placed 0x0200 [0x70, 0x05]).setStat 0x40) (fun t => (t.pc, t.stat)) =
      some (0x0207, 0x40) := by decide
/-- Vector C23: JMP ($30FF). -/
theorem test_jmp_C23 :
    after ((((placed 0x0200 [0x6C, 0xFF, 0x30]).write 0x3000 0x99).write 0x30FF 0x78).write 0x3100 0x56) (fun t => (t.pc, t.stat)) =
      some (0x5678, 0x00) := by decide
/-- Vector C24: JMP ($FFFF). -/
theorem test_jmp_C24 : faultOfStep ((placed 0x0200 [0x6C, 0xFF, 0xFF]).write 0xFFFF 0x78) = some (.memoryBounds 0x10000) := by decide
/-- Vector C25: JSR $1234. -/
theorem test_jsr_C25 :
    after (placed 0x0200 [0x20, 0x34, 0x12]) (fun t => (t.sp, t.pc, t.stat, t.read 0x01FE, t.read 0x01FF)) =
      some (0xFD, 0x1234, 0x00, 0x02, 0x02) := by decide
/-- Vector C26: JSR $1234. -/
theorem test_jsr_C26 :
    after ((placed 0x0200 [0x20, 0x34, 0x12]).setSp 0x00) (fun t => (t.sp, t.pc, t.stat, t.read 0x0100, t.read 0x01FF)) =
      some (0xFE, 0x1234, 0x00, 0x02, 0x02) := by decide
/-- Vector C27: RTS. -/
theorem test_rts_C27 :
    after ((((placed 0x0200 [0x60]).setSp 0xFD).write 0x01FE 0x02).write 0x01FF 0x02) (fun t => (t.sp, t.pc, t.stat)) =
      some (0xFF, 0x0203, 0x00) := by decide
/-- Vector C28: RTS. -/
theorem test_rts_C28 :
    after ((((placed 0x0200 [0x60]).setSp 0xFF).write 0x0100 0xFF).write 0x0101 0xFF) (fun t => (t.sp, t.pc, t.stat)) =
      some (0x01, 0x0000, 0x00) := by decide
/-- Vector D2: PHA. -/
theorem test_pha_D2 :
    after (((placed 0x0200 [0x48]).setAcc 0x42).setSp 0x00) (fun t => (t.sp, t.pc, t.stat, t.read 0x0100)) =
      some (0xFF, 0x0201, 0x00, 0x42) := by decide
/-- Vector D4: PHP. -/
theorem test_php_D4 :
    after ((placed 0x0200 [0x08]).setStat 0xC3) (fun t => (t.sp, t.pc, t.stat, t.read 0x01FF)) =
      some (0xFE, 0x0201, 0xC3, 0xD3) := by decide
/-- Vector D6: PLA. -/
theorem test_pla_D6 :
    after ((((placed 0x0200 [0x68]).setAcc 0x11).setSp 0xFE).write 0x01FF 0x80) (fun t => (t.acc, t.sp, t.pc, t.stat, t.read 0x01FF)) =
      some (0x80, 0xFF, 0x0201, 0x80, 0x00) := by decide
/-- Vector D8: PLA. -/
theorem test_pla_D8 :
    after (((placed 0x0200 [0x68]).setSp 0xFF).write 0x0100 0x7F) (fun t => (t.acc, t.sp, t.pc, t.stat, t.read 0x0100)) =
      some (0x7F, 0x00, 0x0201, 0x00, 0x00) := by decide
/-- Vector D9: PLP. -/
theorem test_plp_D9 :
    after ((((placed 0x0200 [0x28]).setSp 0xFE).setStat 0x00).write 0x01FF 0xFF) (fun t => (t.sp, t.pc, t.stat, t.read 0x01FF)) =
      some (0xFF, 0x0201, 0xFF, 0x00) := by decide
/-- Vector D10: PLP. -/
theorem test_plp_D10 :
    after ((((placed 0x0200 [0x28]).setSp 0xFE).setStat 0xFF).write 0x01FF 0x00) (fun t => (t.sp, t.pc, t.stat)) =
      some (0xFF, 0x0201, 0x00) := by decide
/-- Vector E1: INX. -/
theorem test_inx_E1 :
    after ((placed 0x0200 [0xE8]).setIx 0xFF) (fun t => (t.ix, t.pc, t.stat)) =
      some (0x00, 0x0201, 0x02) := by decide
/-- Vector E3: INY. -/
theorem test_iny_E3 :
    after (((placed 0x0200 [0xC8]).setIy 0x00).setStat 0x83) (fun t => (t.iy, t.pc, t.stat)) =
      some (0x01, 0x0201, 0x01) := by decide
/-- Vector E4: DEX. -/
theorem test_dex_E4 :
    after ((placed 0x0200 [0xCA]).setIx 0x00) (fun t => (t.ix, t.pc, t.stat)) =
      some (0xFF, 0x0201, 0x80) := by decide
/-- Vector E6: DEY. -/
theorem test_dey_E6 :
    after ((placed 0x0200 [0x88]).setIy 0x80) (fun t => (t.iy, t.pc, t.stat)) =
      some (0x7F, 0x0201, 0x00) := by decide
/-- Vector E7: INC $10. -/
theorem test_inc_E7 :
    after ((placed 0x0200 [0xE6, 0x10]).write 0x0010 0xFF) (fun t => (t.pc, t.stat, t.read 0x0010)) =
      some (0x0202, 0x02, 0x00) := by decide
/-- Vector E8: INC $10,X. -/
theorem test_inc_E8 :
    after (((placed 0x0200 [0xF6, 0x10]).setIx 0xF5).write 0x0005 0x7F) (fun t => (t.pc, t.stat, t.read 0x0005)) =
      some (0x0202, 0x80, 0x80) := by decide
/-- Vector E12: DEC $10,X. -/
theorem test_dec_E12 :
    after (((placed 0x0200 [0xD6, 0x10]).setIx 0x01).write 0x0011 0x01) (fun t => (t.pc, t.stat, t.read 0x0011)) =
      some (0x0202, 0x02, 0x00) := by decide
/-- Vector E14: DEC $FFFF,X. -/
theorem test_dec_E14 :
    after (((placed 0x0200 [0xDE, 0xFF, 0xFF]).setIx 0x02).write 0x0001 0x10) (fun t => (t.pc, t.stat, t.read 0x0001)) =
      some (0x0203, 0x00, 0x0F) := by decide
/-- Vector E20: CLC. -/
theorem test_clc_E20 :
    after ((placed 0x0200 [0x18]).setStat 0xFF) (fun t => (t.pc, t.stat)) =
      some (0x0201, 0xFE) := by decide
/-- Vector E21: SEC. -/
theorem test_sec_E21 :
    after ((placed 0x0200 [0x38]).setStat 0x80) (fun t => (t.pc, t.stat)) =
      some (0x0201, 0x81) := by decide
/-- Vector E24: CLD. -/
theorem test_cld_E24 :
    after ((placed 0x0200 [0xD8]).setStat 0xFF) (fun t => (t.pc, t.stat)) =
      some (0x0201, 0xF7) := by decide
/-- Vector E25: SED. -/
theorem test_sed_E25 :
    after ((placed 0x0200 [0xF8]).setStat 0x00) (fun t => (t.pc, t.stat)) =
      some (0x0201, 0x08) := by decide
/-- Vector E26: CLI. -/
theorem test_cli_E26 :
    after ((placed 0x0200 [0x58]).setStat 0xFF) (fun t => (t.pc, t.stat)) =
      some (0x0201, 0xFB) := by decide
/-- Vector E27: SEI. -/
theorem test_sei_E27 :
    after ((placed 0x0200 [0x78]).setStat 0x00) (fun t => (t.pc, t.stat)) =
      some (0x0201, 0x04) := by decide
/-- Vector E28: CLV. -/
theorem test_clv_E28 :
    after ((placed 0x0200 [0xB8]).setStat 0xFF) (fun t => (t.pc, t.stat)) =
      some (0x0201, 0xBF) := by decide
/-- Vector E30: TAX. -/
theorem test_tax_E30 :
    after ((placed 0x0200 [0xAA]).setAcc 0x80) (fun t => (t.ix, t.pc, t.stat)) =
      some (0x80, 0x0201, 0x80) := by decide
/-- Vector E31: TXA. -/
theorem test_txa_E31 :
    after ((((placed 0x0200 [0x8A]).setAcc 0x55).setIx 0x00).setStat 0x80) (fun t => (t.acc, t.pc, t.stat)) =
      some (0x00, 0x0201, 0x02) := by decide
/-- Vector E32: TAY. -/
theorem test_tay_E32 :
    after (((placed 0x0200 [0xA8]).setAcc 0x01).setStat 0x82) (fun t => (t.iy, t.pc, t.stat)) =
      some (0x01, 0x0201, 0x00) := by decide
/-- Vector E33: TYA. -/
theorem test_tya_E33 :
    after ((placed 0x0200 [0x98]).setIy 0xFF) (fun t => (t.acc, t.pc, t.stat)) =
      some (0xFF, 0x0201, 0x80) := by decide
/-- Vector E34: TSX. -/
theorem test_tsx_E34 :
    after (placed 0x0200 [0xBA]) (fun t => (t.ix, t.pc, t.stat)) =
      some (0xFF, 0x0201, 0x80) := by decide
/-- Vector E35: TSX. -/
theorem test_tsx_E35 :
    after (((placed 0x0200 [0xBA]).setSp 0x00).setStat 0x80) (fun t => (t.pc, t.stat)) =
      some (0x0201, 0x02) := by decide
/-- Vector E36: TXS. -/
theorem test_txs_E36 :
    after (((placed 0x0200 [0x9A]).setIx 0x00).setStat 0x80) (fun t => (t.sp, t.pc, t.stat)) =
      some (0x00, 0x0201, 0x80) := by decide
/-- Vector F1: BRK. -/
theorem test_brk_F1 :
    after ((((placed 0x0200 [0x00]).setStat 0x43).write 0xFFFE 0x00).write 0xFFFF 0x80) (fun t => (t.sp, t.pc, t.stat, t.read 0x01FD, t.read 0x01FE, t.read 0x01FF)) =
      some (0xFC, 0x8000, 0x53, 0x53, 0x02, 0x02) := by decide
/-- Vector F4: BRK. -/
theorem test_brk_F4 :
    after ((placed 0xFFFF [0x00]).write 0xFFFE 0x00) (fun t => (t.sp, t.pc, t.stat, t.read 0x01FD, t.read 0x01FE)) =
      some (0xFC, 0x0000, 0x10, 0x10, 0x01) := by decide
/-- Vector F5: NOP. -/
theorem test_nop_F5 :
    after (((placed 0x0200 [0xEA]).setAcc 0x12).setStat 0xFF) (fun t => (t.pc, t.stat)) =
      some (0x0201, 0xFF) := by decide
/-- Vector F6: NOP. -/
theorem test_nop_F6 :
    after (placed 0xFFFF [0xEA]) (fun t => (t.pc, t.stat)) =
      some (0x0000, 0x00) := by decide
/-- Vector F7: RTI. -/
theorem test_rti_F7 :
    after (((((placed 0x0200 [0x40]).setSp 0xFC).write 0x01FD 0x53).write 0x01FE 0x02).write 0x01FF 0x02) (fun t => (t.sp, t.pc, t.stat)) =
      some (0xFF, 0x0202, 0x53) := by decide
/-- Vector F8: RTI. -/
theorem test_rti_F8 :
    after ((((((placed 0x0200 [0x40]).setSp 0xFE).setStat 0xFF).write 0x0100 0x34).write 0x0101 0x12).write 0x01FF 0x00) (fun t => (t.sp, t.pc, t.stat)) =
      some (0x01, 0x1234, 0x00) := by decide
/-- Vector G8: LDA $FFFF,Y. -/
theorem test_lda_G8 :
    after (((placed 0x0200 [0xB9, 0xFF, 0xFF]).setIy 0x01).write 0x0000 0x33) (fun t => (t.acc, t.pc, t.stat)) =
      some (0x33, 0x0203, 0x00) := by decide
/-- Vector G9: LDA ($FE,X). -/
theorem test_lda_G9 :
    after ((((((placed 0x0200 [0xA1, 0xFE]).setIx 0x01).write 0x0000 0x12).write 0x00FF 0x34).write 0x0100 0x99).write 0x1234 0x44) (fun t => (t.acc, t.pc, t.stat)) =
      some (0x44, 0x0202, 0x00) := by decide
/-- Vector G14: LDX $10,Y. -/
theorem test_ldx_G14 :
    after ((((placed 0x0200 [0xB6, 0x10]).setIy 0xF1).setStat 0x80).write 0x0001 0x00) (fun t => (t.pc, t.stat)) =
      some (0x0202, 0x02) := by decide
/-- Vector G16: LDX $12F0,Y. -/
theorem test_ldx_G16 :
    after (((placed 0x0200 [0xBE, 0xF0, 0x12]).setIy 0x10).write 0x1300 0x80) (fun t => (t.ix, t.pc, t.stat)) =
      some (0x80, 0x0203, 0x80) := by decide
/-- Vector G20: LDY $10,X. -/
theorem test_ldy_G20 :
    after (((placed 0x0200 [0xB4, 0x10]).setIx 0x01).write 0x0011 0x05) (fun t => (t.iy, t.pc, t.stat)) =
      some (0x05, 0x0202, 0x00) := by decide
/-- Vector G22: LDY $1234,X. -/
theorem test_ldy_G22 :
    after (((placed 0x0200 [0xBC, 0x34, 0x12]).setIx 0x04).write 0x1238 0x07) (fun t => (t.iy, t.pc, t.stat)) =
      some (0x07, 0x0203, 0x00) := by decide
/-- Vector G31: STA $10,X. -/
theorem test_sta_G31 :
    after (((((placed 0x0200 [0x95, 0x10]).setAcc 0x00).setIx 0xF0).setStat 0x00).write 0x0000 0xEE) (fun t => (t.pc, t.stat, t.read 0x0000)) =
      some (0x0202, 0x00, 0x00) := by decide
/-- Vector G36: STA ($20),Y. -/
theorem test_sta_G36 :
    after (((((placed 0x0200 [0x91, 0x20]).setAcc 0x04).setIy 0x05).write 0x0020 0x00).write 0x0021 0x40) (fun t => (t.pc, t.stat, t.read 0x4005)) =
      some (0x0202, 0x00, 0x04) := by decide
/-- Vector G39: STX $10,Y. -/
theorem test_stx_G39 :
    after (((placed 0x0200 [0x96, 0x10]).setIx 0x12).setIy 0x01) (fun t => (t.pc, t.stat, t.read 0x0011)) =
      some (0x0202, 0x00, 0x12) := by decide
/-- Vector G42: STY $10,X. -/
theorem test_sty_G42 :
    after (((placed 0x0200 [0x94, 0x10]).setIx 0x01).setIy 0x22) (fun t => (t.pc, t.stat, t.read 0x0011)) =
      some (0x0202, 0x00, 0x22) := by decide
/-- Vector G43: STY $1234. -/
theorem test_sty_G43 :
    after ((placed 0x0200 [0x8C, 0x34, 0x12]).setIy 0x23) (fun t => (t.pc, t.stat, t.read 0x1234)) =
      some (0x0203, 0x00, 0x23) := by decide
/-- Vector G51: AND #$80. -/
theorem test_and_G51 :
    after (((placed 0x0200 [0x29, 0x80]).setAcc 0xFF).setStat 0x43) (fun t => (t.acc, t.pc, t.stat)) =
      some (0x80, 0x0202, 0xC1) := by decide
/-- Vector G54: ORA #$80. -/
theorem test_ora_G54 :
    after ((placed 0x0200 [0x09, 0x80]).setAcc 0x01) (fun t => (t.acc, t.pc, t.stat)) =
      some (0x81, 0x0202, 0x80) := by decide
/-- Vector G55: ORA $1234,Y. -/
theorem test_ora_G55 :
    after ((((placed 0x0200 [0x19, 0x34, 0x12]).setAcc 0x0F).setIy 0x01).write 0x1235 0xF0) (fun t => (t.acc, t.pc, t.stat)) =
      some (0xFF, 0x0203, 0x80) := by decide
/-- Vector G58: EOR ($20,X). -/
theorem test_eor_G58 :
    after ((((((placed 0x0200 [0x41, 0x20]).setAcc 0x55).setIx 0x00).write 0x0020 0x00).write 0x0021 0x30).write 0x3000 0x0F) (fun t => (t.acc, t.pc, t.stat)) =
      some (0x5A, 0x0202, 0x00) := by decide
/-- Vector G59: BIT $10. -/
theorem test_bit_G59 :
    after (((placed 0x0200 [0x24, 0x10]).setAcc 0x01).write 0x0010 0xC0) (fun t => (t.pc, t.stat)) =
      some (0x0202, 0xC2) := by decide
/-- Vector G60: BIT $10. -/
theorem test_bit_G60 :
    after ((((placed 0x0200 [0x24, 0x10]).setAcc 0xFF).setStat 0xC2).write 0x0010 0x01) (fun t => (t.pc, t.stat)) =
      some (0x0202, 0x00) := by decide

/-! ### Faults (section 9 of the vectors) -/

/-- Vector X1: an undefined opcode. -/
theorem test_fault_X1 : faultOfStep (placed 0x0200 [0x02]) = some (.decodeError 0x02 0x0200) := by decide
/-- Vectors X4 and X5: the first missing byte is the one reported. -/
theorem test_fault_X4_X5 :
    faultOfStep (placed 0xFFFE [0xAD, 0x34]) = some (.memoryBounds 0x10000) ∧
    faultOfStep (placed 0xFFFF [0xAD]) = some (.memoryBounds 0x10000) := by decide
/-- Vector X12: decoding fails before any operand is fetched. -/
theorem test_fault_X12 : faultOfStep (placed 0xFFFF [0xFF]) = some (.decodeError 0xFF 0xFFFF) := by decide
/-- Vector X11: nothing is stored, and `ir`, `decoded` and the record are all that changes. -/
theorem test_fault_X11 :
    let s := (placed 0xFFFF [0x85]).setAcc 0x55
    s.afterStep = ((s.setIr 0x85).setDecoded (decodeOpcode 0x85)).setFault (some (.memoryBounds 0x10000)) := by decide

/-! ### Host operations (section 10 of the vectors) -/

/-- Vector H2: a load at the top of memory. -/
theorem test_host_H2 :
    let t := (perform (.load [0xA9, 0x05] 0xFFFE) State.reset).1
    (t.read 0xFFFE, t.read 0xFFFF, t.pc) = (0xA9, 0x05, 0x0000) := by decide
/-- Vector H3: a load that does not fit writes nothing and records no fault. -/
theorem test_host_H3 :
    perform (.load [0xA9, 0x05, 0x00] 0xFFFE) State.reset = (State.reset, .error (.memoryBounds 0x10001)) := by decide
/-- Vector H8: the entry written over the reset vector; the step then meets 0xFC. -/
theorem test_host_H8 :
    let t := (perform (.setEntry 0xFFFC) State.reset).1
    (t.read 0xFFFC, t.read 0xFFFD, t.pc, faultOfStep t) = (0xFC, 0xFF, 0xFFFC, some (.decodeError 0xFC 0xFFFC)) := by decide
/-- Vector H12: a faulted machine is stuck. -/
theorem test_host_H12 :
    let s := (placed 0x0200 [0x02]).afterStep
    perform .step s = (s, .error (.decodeError 0x02 0x0200)) ∧ s.pc = 0x0200 ∧ s.ir = 0x02 := by decide
/-- Vector H11: a step from reset with nothing loaded is BRK. -/
theorem test_host_H11 :
    after State.reset (fun t => (t.sp, t.pc, t.stat, t.read 0x01FF, t.read 0x01FE, t.read 0x01FD)) =
      some (0xFC, 0x0000, 0x10, 0x00, 0x02, 0x10) := by decide

/-! ### Witnesses: for each obligation with hypotheses, a concrete state and operands that meet them -/

/-- A state that stands at `pc` with no fault and NOP there. -/
def idle : State := placed 0x0200 [0xEA]

theorem witness_DecodeEncodeAgree : decode [0x8D, 0x34, 0x12, 0xEA] = .ok (.staAbs 0x1234, [0xEA]) := rfl

theorem witness_DefinedOpcodesAreExactlyTheTable :
    decodeOpcode 0xFF = none ∧ (0xFF : Byte) ∈ undefinedOpcodes ∧ decodeOpcode 0x02 = none ∧ decodeOpcode 0xFE ≠ none := by
  decide

theorem witness_LengthFollowsFromOpcode :
    (∃ e, decodeOpcode 0x0A = some e ∧ e.mode = .ACC) ∧ (∃ e, decodeOpcode 0xF0 = some e ∧ e.mode = .REL) ∧
    (∃ e, decodeOpcode 0x6C = some e ∧ e.mode = .IND) ∧ decode [0x00, 0xEA] = .ok (.brk, [0xEA]) :=
  ⟨⟨_, rfl, rfl⟩, ⟨_, rfl, rfl⟩, ⟨_, rfl, rfl⟩, rfl⟩

/-- A recorded fault; an undefined byte; and a 3-byte instruction at the last place it fits. -/
theorem witness_StepRunsTheDecodedInstruction :
    (placed 0x0200 [0x02]).afterStep.fault ≠ none ∧
    (let s := placed 0xFFFF [0x02]
     s.fault = none ∧ decodeOpcode (s.read s.pc) = none) ∧
    (let s := placed 0xFFFD [0x4C, 0x00, 0x02]
     s.fault = none ∧ decode s.codeBytes = .ok (.jmpAbs 0x0200, []) ∧
     ∃ e, decodeOpcode (s.read s.pc) = some e ∧ s.pc.toNat + e.length ≤ 65536) := by
  refine ⟨by decide, by decide, by decide, rfl, ⟨_, rfl, by decide⟩⟩

theorem witness_UndefinedOpcodeFaults :
    (let s := placed 0xFFFF [0xFF]
     s.fault = none ∧ decodeOpcode (s.read s.pc) = none ∧ faultOfStep s = some (.decodeError 0xFF 0xFFFF)) ∧
    (idle.fault = none ∧ decodeOpcode (idle.read idle.pc) ≠ none) := by decide

/-- Each clause: undefined; one byte too few; JMP indirect at 0xFFFF; an instruction that ends at 65535 exactly. -/
theorem witness_StepFaultsExactlyWhenTheSpecSays :
    (idle.fault = none ∧ decodeOpcode (idle.read idle.pc) ≠ none) ∧
    decodeOpcode ((placed 0x0200 [0x80]).read 0x0200) = none ∧
    (∃ e, decodeOpcode ((placed 0xFFFE [0xAD, 0x34]).read 0xFFFE) = some e ∧ 65536 < 0xFFFE + e.length) ∧
    (∃ e, decodeOpcode ((placed 0xFFFD [0xAD, 0x34, 0x12]).read 0xFFFD) = some e ∧ ¬ 65536 < 0xFFFD + e.length) ∧
    (let s := placed 0x0200 [0x6C, 0xFF, 0xFF]
     ∃ e, decodeOpcode (s.read s.pc) = some e ∧ e.mnemonic = .JMP ∧ e.mode = .IND ∧
       Memory.read s.mem (s.pc.toNat + 1) = 0xFF ∧ Memory.read s.mem (s.pc.toNat + 2) = 0xFF) :=
  ⟨by decide, by decide, ⟨_, rfl, by decide⟩, ⟨_, rfl, by decide⟩, ⟨_, rfl, rfl, rfl, by decide, by decide⟩⟩

theorem witness_FaultChangesOnlyLatchesAndRecord :
    (placed 0x0200 [0x02]).fault = none ∧ faultOfStep (placed 0x0200 [0x02]) = some (.decodeError 0x02 0x0200) ∧
    faultOfStep (placed 0xFFFF [0xA9]) = some (.memoryBounds 65536) := by decide

theorem witness_FaultIsSticky : (placed 0x0200 [0x02]).afterStep.fault = some (.decodeError 0x02 0x0200) := by decide

/-- The invariant holds, and a step goes on, at a state with memory and with `decoded` set. -/
theorem witness_StepKeepsInvariant :
    let s := idle.afterStep
    Memory.wf s.mem = true ∧ s.fault = none ∧ s.decoded = decodeOpcode s.ir ∧ (after s (fun t => t.pc)).isSome = true := by
  decide

theorem witness_EveryInstructionCompletes :
    exec (.jmpInd 0xFFFF) idle = .fault (.memoryBounds 65536) ∧
    exec (.jmpInd 0xFFFE) idle = .next (idle.setPc 0x0000) := ⟨rfl, rfl⟩

theorem witness_FlagsChangeOnlyByTheirWriters :
    (∃ t, exec (.ldaImm 0x80) idle = .next t) ∧ (Instr.ldaImm 0x80).mnemonic ∉ flagWriters .C ∧
    (Instr.ldaImm 0x80).mnemonic ∉ flagWriters .U := ⟨⟨_, rfl⟩, by decide, by decide⟩

theorem witness_FlagsAffectedNamesTheWriters : row 0x18 .CLC .IMP 1 2 [.C] ∈ opcodeTable := by decide

/-- Each clause in turn: STA writes no register, ASL on memory not `acc`, ASL on `acc` no memory, LDA no memory. -/
theorem witness_RegistersAndMemoryChangeOnlyByTheirWriters :
    (∃ t, exec (.staZp 0x10) idle = .next t) ∧ (Instr.staZp 0x10).mnemonic ∉ accWriters ++ ixWriters ++ iyWriters ++ spWriters ∧
    (∃ t, exec (.aslZp 0x10) idle = .next t) ∧ (Instr.aslZp 0x10).mnemonic ∈ [Mnemonic.ASL, .LSR, .ROL, .ROR] ∧
    (Instr.aslZp 0x10).mode ≠ .ACC ∧
    (∃ t, exec .aslAcc idle = .next t) ∧ Instr.aslAcc.mode = .ACC ∧
    (∃ t, exec (.ldaImm 0x01) idle = .next t) ∧ (Instr.ldaImm 0x01).mnemonic ∉ memoryWriters :=
  ⟨⟨_, rfl⟩, by decide, ⟨_, rfl⟩, by decide, by decide, ⟨_, rfl⟩, rfl, ⟨_, rfl⟩, by decide⟩

theorem witness_ProgramCounterAdvancesByLength :
    (∃ t, exec .nop (idle.setPc 0xFFFF) = .next t) ∧ Instr.nop.mnemonic ∉ controlTransfers ∧
    (∃ t, exec (.bne 0x80) idle = .next t ∧ t.pc = 0x0182) :=
  ⟨⟨_, rfl⟩, by decide, ⟨_, rfl, by decide⟩⟩

/-- Both ranges of addresses, each at the edge of page 1. -/
theorem witness_StackStoresStayInPageOne :
    (∃ t, exec .pha (idle.setSp 0x00) = .next t) ∧ Instr.pha.mnemonic ∈ stackStorers ∧
    (0x00FF : Addr).toNat < 0x0100 ∧ 0x0200 ≤ (0x0200 : Addr).toNat := ⟨⟨_, rfl⟩, by decide, by decide, by decide⟩

/-- The two answers: a next state, and the fault of JMP indirect; and a flag that is neither of the two. -/
theorem witness_DecimalAndInterruptBitsAreInert :
    (∃ t, exec .sed idle = .next t) ∧ exec (.jmpInd 0xFFFF) idle = .fault (.memoryBounds 65536) ∧
    Instr.sed.mnemonic ∉ [Mnemonic.PHP, .BRK] ∧ Flag.C ∉ [Flag.I, .D] := ⟨⟨_, rfl⟩, rfl, by decide, by decide⟩

theorem witness_AdcAddsWithCarry : (Instr.adcIzy 0xFF).mnemonic = .ADC ∧ (Instr.adcImm 0x80).mnemonic = .ADC := ⟨rfl, rfl⟩

theorem witness_SbcSubtractsWithBorrow : (Instr.sbcAbx 0xFFFF).mnemonic = .SBC ∧ (Instr.sbcImm 0xFF).mnemonic = .SBC := ⟨rfl, rfl⟩

theorem witness_OverflowMeansSignedResultOutOfRange :
    (operandOf (.adcImm 0x80) = some (.imm 0x80) ∧ ∃ t, exec (.adcImm 0x80) idle = .next t) ∧
    (operandOf (.sbcImm 0x80) = some (.imm 0x80) ∧ ∃ t, exec (.sbcImm 0x80) idle = .next t) :=
  ⟨⟨rfl, _, rfl⟩, rfl, _, rfl⟩

/-- The hypotheses of `runsFromMemory`: an ADC that ends at the last byte, and one whose operand would lie past it. -/
theorem witness_runsFromMemory :
    (let s := placed 0xFFFE [0x69, 0x80]
     s.fault = none ∧ s.pc.toNat + 2 ≤ 65536 ∧
     (∀ (k : Nat) (h : k < (encode (.adcImm 0x80)).length), s.pc.toNat + k < 65536 →
       Memory.read s.mem (s.pc.toNat + k) = (encode (.adcImm 0x80))[k]'h)) ∧
    (let s := placed 0xFFFF [0x69]
     s.fault = none ∧ ¬ s.pc.toNat + 2 ≤ 65536 ∧
     (∀ (k : Nat) (h : k < (encode (.adcImm 0x80)).length), s.pc.toNat + k < 65536 →
       Memory.read s.mem (s.pc.toNat + k) = (encode (.adcImm 0x80))[k]'h)) := by
  refine ⟨⟨by decide, by decide, by decide⟩, by decide, by decide, by decide⟩

/-- Both sides of the equivalence: with carry-out 1 - C, and with carry-out C (`95_test_vectors.md` S2, rows 2 and 1). -/
theorem witness_SbcUndoesAdc :
    (∃ t, exec (.adcImm 0x01) (idle.setAcc 0xFF) = .next t ∧ t.flag .C = !(idle.setAcc 0xFF).flag .C) ∧
    (∃ t, exec (.adcImm 0x01) (idle.setAcc 0x01) = .next t ∧ t.flag .C = (idle.setAcc 0x01).flag .C) :=
  ⟨⟨_, rfl, by decide⟩, ⟨_, rfl, by decide⟩⟩

theorem witness_CompareSetsFlagsOnly :
    comparedRegister (Instr.cmpAby 0x12F0).mnemonic idle = some idle.acc ∧
    comparedRegister (Instr.cpxZp 0x10).mnemonic idle = some idle.ix ∧
    comparedRegister (Instr.cpyImm 0x80).mnemonic idle = some idle.iy := ⟨rfl, rfl, rfl⟩

theorem witness_AslRolMoveBitsUp : Instr.aslAcc.mnemonic = .ASL ∧ (Instr.rolAbx 0xFFFF).mnemonic = .ROL := ⟨rfl, rfl⟩

theorem witness_LsrRorMoveBitsDown : (Instr.lsrZpx 0xFF).mnemonic = .LSR ∧ Instr.rorAcc.mnemonic = .ROR := ⟨rfl, rfl⟩

/-- A branch of the list, taken and not; and a branch opcode at the last address. -/
theorem witness_BranchesGoWhereTheirBitSays :
    (Instr.bvs 0x80, Flag.V, true) ∈ [(Instr.bcc 0x80, Flag.C, false), (.bcs 0x80, .C, true), (.beq 0x80, .Z, true),
      (.bne 0x80, .Z, false), (.bmi 0x80, .N, true), (.bpl 0x80, .N, false), (.bvc 0x80, .V, false), (.bvs 0x80, .V, true)] ∧
    (idle.setStat 0x40).flag .V = true ∧ idle.flag .V = false ∧
    (let s := placed 0xFFFF [0xF0]
     s.fault = none ∧ s.pc = 0xFFFF ∧ s.read s.pc ∈ [(0x90 : Byte), 0xB0, 0xF0, 0xD0, 0x30, 0x10, 0x50, 0x70]) := by decide

theorem witness_BranchDependsOnOneBitOnly :
    branchFlag (Instr.bcc 0x05).mnemonic = some .C ∧ getFlag .C 0xFE = idle.flag .C ∧
    (idle.setStat 0xFE).stat = 0xFE ∧ (idle.setStat 0xFD).stat = 0xFD ∧ (idle.setStat 0x7F).stat = 0x7F ∧
    (idle.setStat 0xBF).stat = 0xBF ∧ (idle.setStat 0xFF).stat = 0xFF := by decide

theorem witness_JmpGoesToOperandOrStoredTarget : (0xFFFE : Addr) ≠ 0xFFFF := by decide

/-- The state after JSR itself, and `sp` at the wrap. -/
theorem witness_RtsReturnsFromJsr :
    ∃ t u : State, exec (.jsr 0x1234) (idle.setSp 0x00) = .next t ∧ u.sp = t.sp ∧
      u.read (stackAddr 0x00) = t.read (stackAddr 0x00) ∧ u.read (stackAddr (0x00 - 1)) = t.read (stackAddr (0x00 - 1)) :=
  ⟨_, _, rfl, rfl, rfl, rfl⟩

theorem witness_IncDecMemoryWraps : (Instr.incZpx 0xFF).mnemonic = .INC ∧ (Instr.decAbx 0xFFFF).mnemonic = .DEC := ⟨rfl, rfl⟩

theorem witness_FlagInstructionsWriteOneBit :
    (Instr.clv, Flag.V, false) ∈ [(Instr.clc, Flag.C, false), (.sec, .C, true), (.cld, .D, false), (.sed, .D, true),
      (.cli, .I, false), (.sei, .I, true), (.clv, .V, false)] := by decide

/-- A handler's state that kept `sp` and the three bytes: the state BRK left, with another `acc`. -/
theorem witness_RtiResumesAfterBrk :
    ∃ t u : State, exec .brk idle = .next t ∧ u = t.setAcc 0x55 ∧ u.sp = t.sp ∧
      ∀ k : Byte, k.toNat < 3 → u.read (stackAddr (idle.sp - k)) = t.read (stackAddr (idle.sp - k)) :=
  ⟨_, _, rfl, rfl, rfl, fun _ _ => rfl⟩

theorem witness_LoadsReadTheOperand :
    (Instr.ldaIzy 0xFF).mnemonic ∈ [Mnemonic.LDA, .LDX, .LDY] ∧ (Instr.ldxZpy 0xF0).mnemonic = .LDX ∧
    (Instr.ldyAbx 0xFFFF).mnemonic = .LDY := by decide

theorem witness_StoresWriteOneByte :
    storedRegister (Instr.staIzx 0xFF).mnemonic idle = some idle.acc ∧
    storedRegister (Instr.stxZpy 0xFF).mnemonic idle = some idle.ix ∧
    storedRegister (Instr.styZpx 0xFF).mnemonic idle = some idle.iy := ⟨rfl, rfl, rfl⟩

theorem witness_LogicWorksBitByBit :
    (Instr.andImm 0x80).mnemonic = .AND ∧ (Instr.oraImm 0x80).mnemonic = .ORA ∧
    (Instr.eorImm 0x80).mnemonic ∈ [Mnemonic.AND, .ORA, .EOR] := by decide

theorem witness_BitTestsTheOperand : (Instr.bitZp 0x10).mnemonic = .BIT ∧ (Instr.bitAbs 0x1234).mnemonic = .BIT := ⟨rfl, rfl⟩

theorem witness_OperandsFollowFormats :
    Instr.rolAcc.mode = .ACC ∧ (Instr.ldaImm 0xFF).mode = .IMM ∧ (Instr.ldaZp 0xFF).mode = .ZP ∧
    (Instr.ldyZpx 0xFF).mode = .ZPX ∧ (Instr.ldxZpy 0xFF).mode = .ZPY ∧ (Instr.ldaIzx 0xFF).mode = .IZX ∧
    (Instr.staIzy 0xFF).mode = .IZY ∧ (Instr.bitAbs 0xFFFF).mode = .ABS ∧ (Instr.decAbx 0xFFFF).mode = .ABX ∧
    (Instr.oraAby 0xFFFF).mode = .ABY ∧ operandOf (.ldxZpy 0xFF) = some (.mem (.zpy 0xFF)) := by decide

theorem witness_CanonicalMemoriesThatReadAlikeAreEqual :
    Memory.wf (Memory.write (Memory.write [] 5 0x01) 6 0x02) = true ∧
    Memory.wf (Memory.write (Memory.write [] 6 0x02) 5 0x01) = true ∧
    ∀ a : Addr, Memory.read (Memory.write (Memory.write [] 5 0x01) 6 0x02) a.toNat =
      Memory.read (Memory.write (Memory.write [] 6 0x02) 5 0x01) a.toNat := ⟨by decide, by decide, fun _ => rfl⟩

/-- STA just ahead of itself (`95_test_vectors.md`, program P7c). -/
theorem witness_NextFetchSeesTheStore :
    let s := placed 0x0202 [0x8D, 0x05, 0x02]
    storedRegister (Instr.staAbs 0x0205).mnemonic s = some s.acc ∧
    operandOf (.staAbs 0x0205) = some (.mem (.abs 0x0205)) ∧
    ∃ t, exec (.staAbs 0x0205) s = .next t ∧ (MemOperand.abs 0x0205).ea s = t.pc ∧ t.fault = none :=
  ⟨rfl, rfl, _, rfl, by decide, by decide⟩

/-- Both cases at their edge: 65536 bytes would just fit at 0x0000, 65537 would not; two bytes at 0xFFFE do. -/
theorem witness_LoadWritesAllOrNothing :
    ¬ 65536 < (0xFFFE : Addr).toNat + [(0xA9 : Byte), 0x05].length ∧
    65536 < (0xFFFE : Addr).toNat + [(0xA9 : Byte), 0x05, 0x00].length ∧ Memory.wf State.reset.mem = true := by decide

/-- A run that halts and a run that faults. -/
theorem witness_RunEndIsDetermined :
    idle.fault = none ∧ (∃ t, Sys2Proof.core.run 1 idle = .next t) ∧
    (∃ t, runUnder (haltAfter 1) 1 0 idle = .halted t) ∧ (∃ t, runUnder (haltAfter 5) 1 0 idle = .running t) ∧
    (∃ t, runUnder (haltAfter 5) 1 0 (placed 0x0200 [0x02]) = .faulted t) :=
  ⟨rfl, ⟨_, rfl⟩, ⟨_, rfl⟩, ⟨_, rfl⟩, ⟨_, rfl⟩⟩

theorem witness_OtherReadingsOfTheParameters :
    let p : Params := { Config.params with jmpIndirectPageWrapBug := true, pullClearsStackByte := false, pullStatusWholeByte := false }
    p.jmpIndirectPageWrapBug = true ∧ p.pullClearsStackByte = false ∧ p.pullStatusWholeByte = false := by decide

theorem witness_UnloadedMemoryRunsBrkForEver :
    let s := State.reset
    s.fault = none ∧ s.pc = 0x0000 ∧ s.read 0x0000 = 0x00 ∧ s.read 0xFFFE = 0x00 ∧ s.read 0xFFFF = 0x00 := by decide

end Sys2Proof.Tests
end

section
/-! SUPPORT. The rows of Laws/PerInstr.lean as one lemma over every instruction. -/

namespace Sys2Proof.Laws.TableRow

/-- Every instruction has its row. -/
theorem statement_all (i : Instr) : Statement i :=
  match i with
  | .brk => brk | .oraIzx z => oraIzx z | .oraZp z => oraZp z | .aslZp z => aslZp z | .php => php
  | .oraImm v => oraImm v | .aslAcc => aslAcc | .oraAbs a => oraAbs a | .aslAbs a => aslAbs a | .bpl d => bpl d
  | .oraIzy z => oraIzy z | .oraZpx z => oraZpx z | .aslZpx z => aslZpx z | .clc => clc | .oraAby a => oraAby a
  | .oraAbx a => oraAbx a | .aslAbx a => aslAbx a | .jsr a => jsr a | .andIzx z => andIzx z | .bitZp z => bitZp z
  | .andZp z => andZp z | .rolZp z => rolZp z | .plp => plp | .andImm v => andImm v | .rolAcc => rolAcc
  | .bitAbs a => bitAbs a | .andAbs a => andAbs a | .rolAbs a => rolAbs a | .bmi d => bmi d | .andIzy z => andIzy z
  | .andZpx z => andZpx z | .rolZpx z => rolZpx z | .sec => sec | .andAby a => andAby a | .andAbx a => andAbx a
  | .rolAbx a => rolAbx a | .rti => rti | .eorIzx z => eorIzx z | .eorZp z => eorZp z | .lsrZp z => lsrZp z
  | .pha => pha | .eorImm v => eorImm v | .lsrAcc => lsrAcc | .jmpAbs a => jmpAbs a | .eorAbs a => eorAbs a
  | .lsrAbs a => lsrAbs a | .bvc d => bvc d | .eorIzy z => eorIzy z | .eorZpx z => eorZpx z | .lsrZpx z => lsrZpx z
  | .cli => cli | .eorAby a => eorAby a | .eorAbx a => eorAbx a | .lsrAbx a => lsrAbx a | .rts => rts
  | .adcIzx z => adcIzx z | .adcZp z => adcZp z | .rorZp z => rorZp z | .pla => pla | .adcImm v => adcImm v
  | .rorAcc => rorAcc | .jmpInd a => jmpInd a | .adcAbs a => adcAbs a | .rorAbs a => rorAbs a | .bvs d => bvs d
  | .adcIzy z => adcIzy z | .adcZpx z => adcZpx z | .rorZpx z => rorZpx z | .sei => sei | .adcAby a => adcAby a
  | .adcAbx a => adcAbx a | .rorAbx a => rorAbx a | .staIzx z => staIzx z | .styZp z => styZp z | .staZp z => staZp z
  | .stxZp z => stxZp z | .dey => dey | .txa => txa | .styAbs a => styAbs a | .staAbs a => staAbs a
  | .stxAbs a => stxAbs a | .bcc d => bcc d | .staIzy z => staIzy z | .styZpx z => styZpx z | .staZpx z => staZpx z
  | .stxZpy z => stxZpy z | .tya => tya | .staAby a => staAby a | .txs => txs | .staAbx a => staAbx a
  | .ldyImm v => ldyImm v | .ldaIzx z => ldaIzx z | .ldxImm v => ldxImm v | .ldyZp z => ldyZp z | .ldaZp z => ldaZp z
  | .ldxZp z => ldxZp z | .tay => tay | .ldaImm v => ldaImm v | .tax => tax | .ldyAbs a => ldyAbs a
  | .ldaAbs a => ldaAbs a | .ldxAbs a => ldxAbs a | .bcs d => bcs d | .ldaIzy z => ldaIzy z | .ldyZpx z => ldyZpx z
  | .ldaZpx z => ldaZpx z | .ldxZpy z => ldxZpy z | .clv => clv | .ldaAby a => ldaAby a | .tsx => tsx
  | .ldyAbx a => ldyAbx a | .ldaAbx a => ldaAbx a | .ldxAby a => ldxAby a | .cpyImm v => cpyImm v
  | .cmpIzx z => cmpIzx z | .cpyZp z => cpyZp z | .cmpZp z => cmpZp z | .decZp z => decZp z | .iny => iny
  | .cmpImm v => cmpImm v | .dex => dex | .cpyAbs a => cpyAbs a | .cmpAbs a => cmpAbs a | .decAbs a => decAbs a
  | .bne d => bne d | .cmpIzy z => cmpIzy z | .cmpZpx z => cmpZpx z | .decZpx z => decZpx z | .cld => cld
  | .cmpAby a => cmpAby a | .cmpAbx a => cmpAbx a | .decAbx a => decAbx a | .cpxImm v => cpxImm v
  | .sbcIzx z => sbcIzx z | .cpxZp z => cpxZp z | .sbcZp z => sbcZp z | .incZp z => incZp z | .inx => inx
  | .sbcImm v => sbcImm v | .nop => nop | .cpxAbs a => cpxAbs a | .sbcAbs a => sbcAbs a | .incAbs a => incAbs a
  | .beq d => beq d | .sbcIzy z => sbcIzy z | .sbcZpx z => sbcZpx z | .incZpx z => incZpx z | .sed => sed
  | .sbcAby a => sbcAby a | .sbcAbx a => sbcAbx a | .incAbx a => incAbx a

end Sys2Proof.Laws.TableRow
end

section
/-! SUPPORT. Decoding what the encoder writes, and the bytes a step fetches: from memory, an instruction's step is its rule
or the one fault of an operand byte past the end of memory (`20_memory.md` R54, `30_encoding.md` R80 to R84). -/

namespace Sys2Proof.Machine

/-! ### Decode of encode -/

theorem encode_length (i : Instr) : (encode i).length = i.length := by
  cases i <;> rfl

/-- The table's row for the encoder's opcode byte: mnemonic, format and length are those of the instruction (R93). -/
theorem decodeOpcode_opcode (i : Instr) :
    ∃ e, decodeOpcode i.opcode = some e ∧ e.mnemonic = i.mnemonic ∧ e.mode = i.mode ∧ e.length = i.length := by
  obtain ⟨e, entry, mnemonic, mode, length⟩ := Laws.TableRow.statement_all i
  exact ⟨e, entry, mnemonic, mode, length.symm.trans (encode_length i)⟩

/-- The handler's arm for an instruction rebuilds it from its own operand bytes (R81, R124). -/
theorem handlerVariant_operandBytes (i : Instr) (rest : List Byte) :
    ∃ build b1 b2, handlerVariant i.mnemonic i.mode = some build ∧
      takeOperands i.length (i.operandBytes ++ rest) = some (b1, b2, rest) ∧ build b1 b2 = i := by
  cases i <;> exact ⟨_, _, _, rfl, rfl, by simp only [word16_high_low]⟩

/-- An encoded instruction decodes to itself, whatever follows it. -/
theorem decode_encode_append (i : Instr) (rest : List Byte) : decode (encode i ++ rest) = .ok (i, rest) := by
  obtain ⟨e, entry, mnemonic, mode, length⟩ := decodeOpcode_opcode i
  obtain ⟨build, b1, b2, arm, operands, rebuilt⟩ := handlerVariant_operandBytes i rest
  simp [encode, decode, entry, mnemonic, mode, length, arm, operands, rebuilt]

/-- With fewer bytes than the length asks for there are no operands. -/
theorem takeOperands_of_short {n : Nat} {bs : List Byte} (h : 1 + bs.length < n) : takeOperands n bs = none := by
  unfold takeOperands
  split
  · omega
  · simp only [List.length_cons] at h
    omega
  · simp only [List.length_cons] at h
    omega
  · rfl

/-- An opcode byte with too few bytes after it is truncated. -/
theorem decode_opcode_of_short (i : Instr) {bs : List Byte} (h : 1 + bs.length < i.length) :
    decode (i.opcode :: bs) = .error (.truncated i.opcode (1 + bs.length)) := by
  obtain ⟨e, entry, mnemonic, mode, length⟩ := decodeOpcode_opcode i
  obtain ⟨build, b1, b2, arm, -, -⟩ := handlerVariant_operandBytes i []
  simp [decode, entry, mnemonic, mode, length, arm, takeOperands_of_short h]

/-! ### The bytes at `pc` -/

theorem fetchRun_length (s : State) (n a : Nat) : (s.fetchRun n a).length = min n (65536 - a) := by
  induction n generalizing a with
  | zero => simp [State.fetchRun]
  | succ n ih =>
    by_cases h : a < 65536
    · simp only [State.fetchRun, fetch_below s h, List.length_cons, ih]
      omega
    · simp only [State.fetchRun, fetch_above s (Nat.le_of_not_lt h), List.length_nil]
      omega

theorem fetchRun_getElem (s : State) (n a k : Nat) (hk : k < (s.fetchRun n a).length) :
    (s.fetchRun n a)[k] = Memory.read s.mem (a + k) := by
  induction n generalizing a k with
  | zero => simp [State.fetchRun] at hk
  | succ n ih =>
    have h : a < 65536 := by
      rw [fetchRun_length] at hk
      omega
    simp only [State.fetchRun, fetch_below s h] at hk ⊢
    cases k with
    | zero => rfl
    | succ k => simpa [Nat.add_assoc, Nat.add_comm 1 k] using ih (a + 1) k (by simpa using hk)

theorem codeBytes_length (s : State) : s.codeBytes.length = min 3 (65536 - s.pc.toNat) :=
  fetchRun_length s 3 s.pc.toNat

theorem codeBytes_getElem (s : State) (k : Nat) (hk : k < s.codeBytes.length) :
    s.codeBytes[k] = Memory.read s.mem (s.pc.toNat + k) :=
  fetchRun_getElem s 3 s.pc.toNat k hk

theorem length_le_three (i : Instr) : i.length ≤ 3 := by
  unfold Instr.length Mode.length
  split <;> decide

/-- The bytes from `pc` on, as far as they lie inside memory, are those of `i`: the hypothesis of `runsFromMemory`. -/
def codeIs (i : Instr) (s : State) : Prop :=
  ∀ (k : Nat) (h : k < (encode i).length), s.pc.toNat + k < 65536 →
    Memory.read s.mem (s.pc.toNat + k) = (encode i)[k]'h

theorem codeBytes_getElem_of_codeIs {i : Instr} {s : State} (code : codeIs i s) (k : Nat)
    (hc : k < s.codeBytes.length) (he : k < (encode i).length) : s.codeBytes[k] = (encode i)[k] := by
  rw [codeBytes_getElem, code k he]
  rw [codeBytes_length] at hc
  omega

/-- Where the whole instruction lies inside memory, the fetched bytes begin with it. -/
theorem encode_prefix_codeBytes {i : Instr} {s : State} (fits : s.pc.toNat + i.length ≤ 65536) (code : codeIs i s) :
    encode i <+: s.codeBytes := by
  have three := length_le_three i
  have within : (encode i).length ≤ s.codeBytes.length := by
    rw [codeBytes_length, encode_length]
    omega
  exact List.prefix_iff_getElem.mpr
    ⟨within, fun k hk => (codeBytes_getElem_of_codeIs code k (Nat.lt_of_lt_of_le hk within) hk).symm⟩

/-- Where it does not, the fetched bytes are a beginning of it. -/
theorem codeBytes_prefix_encode {i : Instr} {s : State} (past : 65536 < s.pc.toNat + i.length) (code : codeIs i s) :
    s.codeBytes <+: encode i := by
  have within : s.codeBytes.length ≤ (encode i).length := by
    rw [codeBytes_length, encode_length]
    omega
  exact List.prefix_iff_getElem.mpr
    ⟨within, fun k hk => codeBytes_getElem_of_codeIs code k hk (Nat.lt_of_lt_of_le hk within)⟩

theorem fetchDecode_of_prefix {i : Instr} {s : State} (h : encode i <+: s.codeBytes) : s.fetchDecode = .ok i := by
  obtain ⟨rest, h⟩ := h
  simp only [State.fetchDecode, ← h, decode_encode_append]

/-- Cut off by the end of memory, the instruction faults with the first address past it (`60_exceptions.md` R302). -/
theorem fetchDecode_of_cut {i : Instr} {s : State} (past : 65536 < s.pc.toNat + i.length)
    (h : s.codeBytes <+: encode i) : s.fetchDecode = .error (.memoryBounds 65536) := by
  have length := codeBytes_length s
  have three := length_le_three i
  have := s.pc.isLt
  cases bytes : s.codeBytes with
  | nil =>
    rw [bytes, List.length_nil] at length
    omega
  | cons op bs =>
    rw [bytes, List.length_cons] at length
    rw [bytes, encode, List.cons_prefix_cons] at h
    have short : 1 + bs.length < i.length := by omega
    have last : s.pc.toNat + (1 + bs.length) = 65536 := by omega
    simp only [State.fetchDecode, bytes, h.1, decode_opcode_of_short i short, last]

/-- Every instruction runs from memory: nothing stops it but an operand byte past the end of memory. -/
theorem runsFromMemory_all (i : Instr) : runsFromMemory i := by
  intro s running code
  split
  · next fits =>
    have opcode : s.read s.pc = i.opcode := code 0 (Nat.succ_pos _) s.pc.isLt
    have latched : s.latch = { s with ir := i.opcode, decoded := decodeOpcode i.opcode } := by
      rw [← opcode]
      rfl
    rw [step_running running (fetchDecode_of_prefix (encode_prefix_codeBytes fits code)), latched]
  · next past =>
    have past := Nat.lt_of_not_le past
    simp only [step, running, fetchDecode_of_cut past (codeBytes_prefix_encode past code)]

end Sys2Proof.Machine
end

section
/-! SUPPORT. Operands by format, and the frames every instruction's rule speaks of. -/

namespace Sys2Proof.Machine

@[simp] theorem formatOperand_abs (a : Addr) : formatOperand .ABS (littleEndian a) = some (.mem (.abs a)) := by
  simp only [littleEndian, formatOperand, word16_high_low]

@[simp] theorem formatOperand_abx (a : Addr) : formatOperand .ABX (littleEndian a) = some (.mem (.abx a)) := by
  simp only [littleEndian, formatOperand, word16_high_low]

@[simp] theorem formatOperand_aby (a : Addr) : formatOperand .ABY (littleEndian a) = some (.mem (.aby a)) := by
  simp only [littleEndian, formatOperand, word16_high_low]

/-- An operand's length is that of its format (`30_encoding.md` R82). -/
theorem formatOperand_length {m : Mode} {bs : List Byte} {o : Operand} (h : formatOperand m bs = some o) :
    o.length = m.length := by
  unfold formatOperand at h
  split at h <;> cases h <;> rfl

theorem operandOf_length {i : Instr} {o : Operand} (h : operandOf i = some o) : o.length = i.length :=
  formatOperand_length h

/-- Z and N after `SetNZ` of a byte (`10_state.md` R31). -/
theorem zeroNegative_of_flags {r : Byte} {t : State} (z : t.flag .Z = (r == 0)) (n : t.flag .N = r.msb) :
    zeroNegative r.toNat t := by
  refine ⟨?_, ?_⟩
  · rw [z, Bool.eq_iff_iff, beq_iff_eq, decide_eq_true_iff]
    exact BitVec.toNat_inj.symm
  · rw [n, BitVec.msb_eq_decide]

theorem pcAdvances_advance {s u : State} (h : u.pc = s.pc) (n : Nat) : pcAdvances n s (u.advance n) := by
  simp [pcAdvances, h]

end Sys2Proof.Machine
end

section
/-! SUPPORT. Arithmetic and compare: the two shared effects, said once, and the forms they are the rule of. -/

namespace Sys2Proof.Machine

/-- What ADC and SBC do on `acc`, C, V, Z, N and `pc`, and that they do nothing else, for the ALU's answer `out`
(`40_arithmetic_compare.md` R130, R131). -/
theorem addSub_next (alu : Byte → Byte → Bool → AluOut) (o : Operand) (s : State) :
    ∃ t, addSub alu o s = .next t ∧
      let out := alu s.acc (o.value s) (s.flag .C)
      t.acc = out.result ∧ t.flag .C = out.carry ∧ t.flag .V = out.overflow ∧ zeroNegative out.result.toNat t ∧
      keepsFlags [.C, .V, .Z, .N] s t ∧ pcAdvances o.length s t ∧
      t = { s with acc := t.acc, stat := t.stat, pc := t.pc } ∧ keepsBytesExcept [] s t := by
  refine ⟨_, rfl, rfl, ?carry, ?overflow, zeroNegative_of_flags ?zero ?negative, ?kept, pcAdvances_advance rfl _, rfl,
    fun _ _ => rfl⟩
  case kept =>
    intro f hf
    simp only [List.mem_cons, List.not_mem_nil, or_false, not_or] at hf
    simp [getFlag_statCVZN, hf, State.flag]
  all_goals simp [getFlag_statCVZN]

/-- What a compare of register `r` does on C, Z, N and `pc`, and that it does nothing else (R132 to R134). -/
theorem compareWith_next (r : Byte) (o : Operand) (s : State) :
    ∃ t, compareWith r o s = .next t ∧
      let out := aluCompare r (o.value s)
      t.flag .C = out.carry ∧ zeroNegative out.result.toNat t ∧
      keepsFlags [.C, .Z, .N] s t ∧ pcAdvances o.length s t ∧
      t = { s with stat := t.stat, pc := t.pc } ∧ keepsBytesExcept [] s t := by
  refine ⟨_, rfl, ?carry, zeroNegative_of_flags ?zero ?negative, ?kept, pcAdvances_advance rfl _, rfl, fun _ _ => rfl⟩
  case kept =>
    intro f hf
    simp only [List.mem_cons, List.not_mem_nil, or_false, not_or] at hf
    simp [getFlag_statCZN, hf, State.flag]
  all_goals simp [getFlag_statCZN]

/-- Every form of ADC is the shared effect with the adder, over the operand of its format (R130). -/
theorem exec_adc (i : Instr) (h : i.mnemonic = .ADC) :
    ∃ o, operandOf i = some o ∧ ∀ s, exec i s = addSub aluAdc o s :=
  match i, h with
  | .adcIzx _, _ => ⟨_, rfl, fun _ => rfl⟩
  | .adcZp _, _ => ⟨_, rfl, fun _ => rfl⟩
  | .adcImm _, _ => ⟨_, rfl, fun _ => rfl⟩
  | .adcAbs a, _ => ⟨_, formatOperand_abs a, fun _ => rfl⟩
  | .adcIzy _, _ => ⟨_, rfl, fun _ => rfl⟩
  | .adcZpx _, _ => ⟨_, rfl, fun _ => rfl⟩
  | .adcAby a, _ => ⟨_, formatOperand_aby a, fun _ => rfl⟩
  | .adcAbx a, _ => ⟨_, formatOperand_abx a, fun _ => rfl⟩

/-- Every form of CMP, CPX and CPY is the shared effect on its register, over the operand of its format (R132 to R134). -/
theorem exec_compare (i : Instr) {s : State} {r : Byte} (h : comparedRegister i.mnemonic s = some r) :
    ∃ o, operandOf i = some o ∧ exec i s = compareWith r o s :=
  match i, h with
  | .cmpIzx _, rfl => ⟨_, rfl, rfl⟩
  | .cmpZp _, rfl => ⟨_, rfl, rfl⟩
  | .cmpImm _, rfl => ⟨_, rfl, rfl⟩
  | .cmpAbs a, rfl => ⟨_, formatOperand_abs a, rfl⟩
  | .cmpIzy _, rfl => ⟨_, rfl, rfl⟩
  | .cmpZpx _, rfl => ⟨_, rfl, rfl⟩
  | .cmpAby a, rfl => ⟨_, formatOperand_aby a, rfl⟩
  | .cmpAbx a, rfl => ⟨_, formatOperand_abx a, rfl⟩
  | .cpxImm _, rfl => ⟨_, rfl, rfl⟩
  | .cpxZp _, rfl => ⟨_, rfl, rfl⟩
  | .cpxAbs a, rfl => ⟨_, formatOperand_abs a, rfl⟩
  | .cpyImm _, rfl => ⟨_, rfl, rfl⟩
  | .cpyZp _, rfl => ⟨_, rfl, rfl⟩
  | .cpyAbs a, rfl => ⟨_, formatOperand_abs a, rfl⟩

/-- The adder's result as a number: the sum's low byte (R130). -/
theorem aluAdc_result_toNat (a m : Byte) (c : Bool) :
    (aluAdc a m c).result.toNat = (a.toNat + m.toNat + c.toNat) % 256 := by
  simp only [aluAdc, BitVec.toNat_ofNat]

/-- The adder's overflow by the sign comparison (R130). -/
theorem aluAdc_overflow (a m : Byte) (c : Bool) :
    (aluAdc a m c).overflow = decide (a.msb = m.msb ∧ (aluAdc a m c).result.msb ≠ a.msb) := by
  rw [Bool.eq_iff_iff, decide_eq_true_iff]
  simp only [aluAdc, Bool.and_eq_true, beq_iff_eq, bne_iff_ne]

/-- The comparison's result as a number: the difference, wrapped (R132). -/
theorem aluCompare_result_toNat (r m : Byte) : (aluCompare r m).result.toNat = (r.toNat + 256 - m.toNat) % 256 := by
  have := m.isLt
  simp only [aluCompare, BitVec.toNat_sub]
  congr 1
  omega

end Sys2Proof.Machine
end

section
/-! PROOFS. The obligations of `40_arithmetic_compare.md`. -/

namespace Sys2Proof.Machine

/-- Settles O20: each form is `addSub` with the adder, whose answer is R130's sum. -/
theorem adcAddsWithCarry : Obligations.AdcAddsWithCarry := by
  refine ⟨by decide, fun i _ => runsFromMemory_all i, fun i s h => ?_⟩
  obtain ⟨o, operand, meaning⟩ := exec_adc i h
  obtain ⟨t, next, acc, carry, overflow, nz, kept, pc, frame, bytes⟩ := addSub_next aluAdc o s
  rw [aluAdc_result_toNat] at nz
  refine ⟨o, t, operand, (meaning s).trans next, ?_, carry, ?_, nz, kept, operandOf_length operand ▸ pc, frame, bytes⟩
  · rw [acc, aluAdc_result_toNat]
  · rw [overflow, aluAdc_overflow, acc]

/-- Settles O24: each form is `compareWith` on its register. -/
theorem compareSetsFlagsOnly : Obligations.CompareSetsFlagsOnly := by
  refine ⟨by decide, by decide, by decide, fun i _ => runsFromMemory_all i, fun i r s h => ?_⟩
  obtain ⟨o, operand, meaning⟩ := exec_compare i h
  obtain ⟨t, next, carry, nz, kept, pc, frame, bytes⟩ := compareWith_next r o s
  rw [aluCompare_result_toNat] at nz
  exact ⟨o, t, operand, meaning.trans next, carry, nz, kept, operandOf_length operand ▸ pc, frame, bytes⟩

end Sys2Proof.Machine
end

section
/-! SUPPORT. Shifts and rotates: the 9-bit rotation of `C:v` bit by bit, the two shared effects, and the forms they are the
rule of. -/

namespace Sys2Proof.Machine

/-! ### The rotation of `C:v` -/

/-- Rotating left shifts the carry in behind the byte (`41_shift_rotate.md` R152). -/
theorem aluRol_result (v : Byte) (c : Bool) : (aluRol v c).result = v.shiftConcat c := by
  apply BitVec.eq_of_toNat_eq
  rw [BitVec.toNat_shiftConcat]
  simp only [aluRol, BitVec.toNat_ofNat, Nat.shiftLeft_eq]
  cases c <;> simp only [Bool.toNat_true, Bool.toNat_false] <;> omega

/-- Rotating right drops the low bit of the nine bits `C:v` (R153). -/
theorem aluRor_result (v : Byte) (c : Bool) : (aluRor v c).result = (BitVec.cons c v >>> 1).setWidth 8 := by
  apply BitVec.eq_of_toNat_eq
  have := v.isLt
  simp only [aluRor, BitVec.toNat_setWidth, BitVec.toNat_ushiftRight, BitVec.toNat_cons', BitVec.toNat_ofNat,
    Nat.shiftLeft_eq, Nat.shiftRight_eq_div_pow]
  omega

theorem aluRol_bit_zero (v : Byte) (c : Bool) : (aluRol v c).result.getLsbD 0 = c := by
  simp [aluRol_result]

theorem aluRol_bit_succ (v : Byte) (c : Bool) {k : Nat} (h : k < 7) :
    (aluRol v c).result.getLsbD (k + 1) = v.getLsbD k := by
  rw [aluRol_result, BitVec.getLsbD_shiftConcat]
  simp [Nat.succ_lt_succ h]

theorem aluRor_bit_seven (v : Byte) (c : Bool) : (aluRor v c).result.getLsbD 7 = c := by
  simp [aluRor_result, BitVec.getElem_cons]

theorem aluRor_bit_lower (v : Byte) (c : Bool) {k : Nat} (h : k < 7) :
    (aluRor v c).result.getLsbD k = v.getLsbD (k + 1) := by
  have inside : k < 8 := Nat.lt_succ_of_lt h
  have byte : 1 + k ≠ 8 := by omega
  simp [aluRor_result, BitVec.getLsbD_cons, inside, byte, Nat.add_comm k 1]

/-- ASL is ROL with 0 for the carry (R150, R152). -/
theorem aluAsl_eq_aluRol (v : Byte) (c : Bool) : aluAsl v c = aluRol v false := by
  simp [aluAsl, aluRol, ← BitVec.toNat_inj]

/-- LSR is ROR with 0 for the carry (R151, R153). -/
theorem aluLsr_eq_aluRor (v : Byte) (c : Bool) : aluLsr v c = aluRor v false := by
  simp [aluLsr, aluRor]

/-! ### The two shared effects -/

/-- `t` is `s` after the ALU's answer `out` has gone to the target `o`, C, Z, N and `pc` (R154). -/
def shiftedTo (o : Operand) (out : AluOut) (s t : State) : Prop :=
  targetHolds o out.result s t ∧ t.flag .C = out.carry ∧ zeroNegative out.result.toNat t ∧
    keepsFlags [.C, .Z, .N] s t ∧ pcAdvances o.length s t

/-- The flags' and the program counter's part of `shiftedTo` follows from the new `stat` and `pc`. -/
theorem shiftedTo_of_target {o : Operand} {out : AluOut} {s t : State} (target : targetHolds o out.result s t)
    (stat : t.stat = statCZN out s.stat) (pc : pcAdvances o.length s t) : shiftedTo o out s t := by
  have flag (f : Flag) : t.flag f = getFlag f (statCZN out s.stat) := congrArg (getFlag f) stat
  refine ⟨target, ?carry, zeroNegative_of_flags ?zero ?negative, ?kept, pc⟩
  case kept =>
    intro f hf
    simp only [List.mem_cons, List.not_mem_nil, or_false, not_or] at hf
    rw [flag, getFlag_statCZN]
    simp [hf, State.flag]
  all_goals simp [flag, getFlag_statCZN]

theorem shiftAcc_next (op : Byte → Bool → AluOut) (s : State) :
    ∃ t, shiftAcc op s = .next t ∧ shiftedTo .acc (op s.acc (s.flag .C)) s t :=
  ⟨_, rfl, shiftedTo_of_target ⟨rfl, fun _ _ => rfl⟩ rfl (pcAdvances_advance rfl _)⟩

theorem shiftMem_next (op : Byte → Bool → AluOut) (q : MemOperand) (s : State) :
    ∃ t, shiftMem op q s = .next t ∧ shiftedTo (.mem q) (op (s.read (q.ea s)) (s.flag .C)) s t := by
  refine ⟨_, rfl, shiftedTo_of_target ⟨rfl, ?stored, ?others⟩ rfl (pcAdvances_advance rfl _)⟩
  case stored => exact write_read_same s _ _
  case others =>
    intro a ha
    exact write_read_other s _ (by simpa using ha)

/-! ### Their forms -/

/-- The ALU operation of a shift or rotate (R150 to R153). -/
def shiftOp : Mnemonic → Option (Byte → Bool → AluOut)
  | .ASL => some aluAsl
  | .LSR => some aluLsr
  | .ROL => some aluRol
  | .ROR => some aluRor
  | _ => none

/-- Every form of ASL, LSR, ROL and ROR is its mnemonic's operation on the operand of its format (R154). -/
theorem exec_shift (i : Instr) {op : Byte → Bool → AluOut} (h : shiftOp i.mnemonic = some op) :
    ∃ o, operandOf i = some o ∧ ∀ s, ∃ t, exec i s = .next t ∧ shiftedTo o (op (o.value s) (s.flag .C)) s t :=
  match i, h with
  | .aslZp _, rfl | .lsrZp _, rfl | .rolZp _, rfl | .rorZp _, rfl => ⟨_, rfl, shiftMem_next _ _⟩
  | .aslAcc, rfl | .lsrAcc, rfl | .rolAcc, rfl | .rorAcc, rfl => ⟨_, rfl, shiftAcc_next _⟩
  | .aslAbs a, rfl | .lsrAbs a, rfl | .rolAbs a, rfl | .rorAbs a, rfl => ⟨_, formatOperand_abs a, shiftMem_next _ _⟩
  | .aslZpx _, rfl | .lsrZpx _, rfl | .rolZpx _, rfl | .rorZpx _, rfl => ⟨_, rfl, shiftMem_next _ _⟩
  | .aslAbx a, rfl | .lsrAbx a, rfl | .rolAbx a, rfl | .rorAbx a, rfl => ⟨_, formatOperand_abx a, shiftMem_next _ _⟩

/-- ASL and ROL are one rotation: ROL brings in the carry, ASL brings in 0. -/
theorem shiftOp_of_asl_or_rol {m : Mnemonic} (h : m = .ASL ∨ m = .ROL) :
    ∃ op, shiftOp m = some op ∧ ∀ v c, op v c = aluRol v (if m = .ROL then c else false) := by
  rcases h with rfl | rfl
  · exact ⟨_, rfl, aluAsl_eq_aluRol⟩
  · exact ⟨_, rfl, fun _ _ => rfl⟩

/-- LSR and ROR are one rotation: ROR brings in the carry, LSR brings in 0. -/
theorem shiftOp_of_lsr_or_ror {m : Mnemonic} (h : m = .LSR ∨ m = .ROR) :
    ∃ op, shiftOp m = some op ∧ ∀ v c, op v c = aluRor v (if m = .ROR then c else false) := by
  rcases h with rfl | rfl
  · exact ⟨_, rfl, aluLsr_eq_aluRor⟩
  · exact ⟨_, rfl, fun _ _ => rfl⟩

end Sys2Proof.Machine
end

section
/-! PROOFS. The obligations of `41_shift_rotate.md`. -/

namespace Sys2Proof.Machine

/-- Settles O25: each form rotates `C:v` left, with the carry or with 0 brought in. -/
theorem aslRolMoveBitsUp : Obligations.AslRolMoveBitsUp := by
  refine ⟨by decide, by decide, fun i _ => runsFromMemory_all i, fun i s h => ?_⟩
  obtain ⟨op, isOp, rotation⟩ := shiftOp_of_asl_or_rol h
  obtain ⟨o, operand, meaning⟩ := exec_shift i isOp
  obtain ⟨t, next, target, carry, nz, kept, pc⟩ := meaning s
  rw [rotation] at target carry nz
  exact ⟨o, _, t, operand, next, target, aluRol_bit_zero _ _, fun _ hk => aluRol_bit_succ _ _ hk, carry, nz, kept,
    operandOf_length operand ▸ pc⟩

/-- Settles O26: each form rotates `C:v` right, with the carry or with 0 brought in. -/
theorem lsrRorMoveBitsDown : Obligations.LsrRorMoveBitsDown := by
  refine ⟨by decide, by decide, fun i _ => runsFromMemory_all i, fun i s h => ?_⟩
  obtain ⟨op, isOp, rotation⟩ := shiftOp_of_lsr_or_ror h
  obtain ⟨o, operand, meaning⟩ := exec_shift i isOp
  obtain ⟨t, next, target, carry, nz, kept, pc⟩ := meaning s
  rw [rotation] at target carry nz
  exact ⟨o, _, t, operand, next, target, aluRor_bit_seven _ _, fun _ hk => aluRor_bit_lower _ _ hk, carry, nz, kept,
    operandOf_length operand ▸ pc⟩

end Sys2Proof.Machine
end

section
/-! SUPPORT. Increment, decrement, flags and transfers: the three shared effects, said once, and the forms of INC and DEC
(`44_incdec_flags_transfer.md`). -/

namespace Sys2Proof.Machine

/-- Z and N after `SetNZ` of a byte, by the new `stat` (`10_state.md` R31). -/
theorem zeroNegative_of_stat {v st : Byte} {t : State} (stat : t.stat = setNZ v st) : zeroNegative v.toNat t := by
  have flag (f : Flag) : t.flag f = getFlag f (setNZ v st) := congrArg (getFlag f) stat
  apply zeroNegative_of_flags <;> simp [flag, getFlag_setNZ]

/-- `SetNZ` writes no bit but Z and N (R31). -/
theorem keepsFlags_of_stat {v : Byte} {s t : State} (stat : t.stat = setNZ v s.stat) : keepsFlags [.Z, .N] s t := by
  intro f hf
  simp only [List.mem_cons, List.not_mem_nil, or_false, not_or] at hf
  obtain ⟨notZ, notN⟩ := hf
  rw [State.flag, stat, getFlag_setNZ, if_neg notN, if_neg notZ, State.flag]

/-- The increment wraps (R210). -/
theorem aluInc_toNat (v : Byte) : (aluInc v).toNat = (v.toNat + 1) % 256 := by
  simp [aluInc]

/-- The decrement wraps (R212). -/
theorem aluDec_toNat (v : Byte) : (aluDec v).toNat = (v.toNat + 255) % 256 := by
  simp [aluDec, BitVec.toNat_sub, Nat.add_comm]

/-! ### A register written, Z and N from it -/

/-- What writing a register with `put` and `SetNZ` of its new value do, and that they do nothing else (R210 to R213, R230 to
R234). -/
theorem registerNZ_next (put : State → Byte → State) (v : Byte) (s : State) (pc : (put s v).pc = s.pc) :
    ∃ t, registerNZ put v s = .next t ∧ zeroNegative v.toNat t ∧ keepsFlags [.Z, .N] s t ∧ pcAdvances 1 s t ∧
      t = ((put s v).setStat t.stat).setPc t.pc :=
  ⟨_, rfl, zeroNegative_of_stat rfl, keepsFlags_of_stat rfl, pcAdvances_advance pc 1, rfl⟩

/-- The same effect told of the register's new value, which `get` reads: what an increment or a decrement is judged by. -/
theorem registerNZ_next_get (get : State → Byte) (put : State → Byte → State) (v : Byte) (s : State)
    (pc : (put s v).pc = s.pc) (mem : (put s v).mem = s.mem)
    (written : ∀ st a, get (((put s v).setStat st).setPc a) = v) :
    ∃ t, registerNZ put v s = .next t ∧ (get t).toNat = v.toNat ∧ zeroNegative (get t).toNat t ∧
      keepsFlags [.Z, .N] s t ∧ pcAdvances 1 s t ∧ t = ((put s (get t)).setStat t.stat).setPc t.pc ∧
      keepsBytesExcept [] s t := by
  obtain ⟨t, next, nz, kept, advanced, frame⟩ := registerNZ_next put v s pc
  have value : get t = v := (congrArg get frame).trans (written _ _)
  have memory : t.mem = s.mem := (congrArg State.mem frame).trans mem
  rw [← value] at nz frame
  exact ⟨t, next, congrArg BitVec.toNat value, nz, kept, advanced, frame,
    fun a _ => congrArg (Memory.read · a.toNat) memory⟩

/-! ### One bit of `stat` -/

/-- What a flag instruction does on its bit and `pc`, and that it does nothing else (R220 to R226). -/
theorem flagWrite_next (f : Flag) (b : Bool) (s : State) :
    ∃ t, flagWrite f b s = .next t ∧ t.flag f = b ∧ keepsFlags [f] s t ∧ pcAdvances 1 s t ∧
      t = { s with stat := t.stat, pc := t.pc } ∧ keepsBytesExcept [] s t := by
  refine ⟨_, rfl, getFlag_putFlag_same f b s.stat, ?others, pcAdvances_advance rfl 1, rfl, fun _ _ => rfl⟩
  intro g hg
  exact getFlag_putFlag_other (by simpa using hg) b s.stat

/-! ### INC and DEC -/

/-- What INC and DEC do on the byte at the effective address, Z, N and `pc`, and that they do nothing else (R214, R215). -/
theorem bumpMem_next (op : Byte → Byte) (q : MemOperand) (s : State) :
    ∃ t, bumpMem op q s = .next t ∧ t.read (q.ea s) = op (s.read (q.ea s)) ∧
      zeroNegative (op (s.read (q.ea s))).toNat t ∧ keepsFlags [.Z, .N] s t ∧ keepsBytesExcept [q.ea s] s t ∧
      pcAdvances q.length s t ∧ t = { s with mem := t.mem, stat := t.stat, pc := t.pc } := by
  refine ⟨_, rfl, write_read_same s _ _, zeroNegative_of_stat rfl, keepsFlags_of_stat rfl, ?others,
    pcAdvances_advance rfl _, rfl⟩
  intro a ha
  exact write_read_other s _ (by simpa using ha)

/-- The operation of INC and of DEC on a byte (R214, R215). -/
def bumpOp : Mnemonic → Option (Byte → Byte)
  | .INC => some aluInc
  | .DEC => some aluDec
  | _ => none

/-- Every form of INC and DEC is its mnemonic's operation on the operand of its format (R214, R215). -/
theorem exec_bump (i : Instr) {op : Byte → Byte} (h : bumpOp i.mnemonic = some op) :
    ∃ q, operandOf i = some (.mem q) ∧ ∀ s, exec i s = bumpMem op q s :=
  match i, h with
  | .incZp _, rfl | .decZp _, rfl => ⟨_, rfl, fun _ => rfl⟩
  | .incAbs a, rfl | .decAbs a, rfl => ⟨_, formatOperand_abs a, fun _ => rfl⟩
  | .incZpx _, rfl | .decZpx _, rfl => ⟨_, rfl, fun _ => rfl⟩
  | .incAbx a, rfl | .decAbx a, rfl => ⟨_, formatOperand_abx a, fun _ => rfl⟩

/-- INC and DEC are one addition modulo 256: INC adds 1, DEC adds 255. -/
theorem bumpOp_of_inc_or_dec {m : Mnemonic} (h : m = .INC ∨ m = .DEC) :
    ∃ op, bumpOp m = some op ∧ ∀ v, (op v).toNat = (v.toNat + (if m = .INC then 1 else 255)) % 256 := by
  rcases h with rfl | rfl
  · exact ⟨_, rfl, aluInc_toNat⟩
  · exact ⟨_, rfl, aluDec_toNat⟩

end Sys2Proof.Machine
end

section
/-! PROOFS. The obligations of `44_incdec_flags_transfer.md`. -/

namespace Sys2Proof.Machine

/-- Settles O38: each form is `bumpMem` with the wrapping increment or decrement. -/
theorem incDecMemoryWraps : Obligations.IncDecMemoryWraps := by
  refine ⟨by decide, by decide, fun i _ => runsFromMemory_all i, fun i s h => ?_⟩
  obtain ⟨op, isOp, wraps⟩ := bumpOp_of_inc_or_dec h
  obtain ⟨q, operand, meaning⟩ := exec_bump i isOp
  obtain ⟨t, next, stored, nz, kept, bytes, pc, frame⟩ := bumpMem_next op q s
  refine ⟨q, t, operand, (meaning s).trans next, ?_, stored ▸ nz, kept, bytes, operandOf_length operand ▸ pc, frame⟩
  rw [stored, wraps]

/-- Settles O37: each is a register write with Z and N, of the wrapped increment or decrement of that register. -/
theorem incDecRegisterWraps : Obligations.IncDecRegisterWraps := by
  refine ⟨by decide, by decide, by decide, by decide, fun s => ⟨?inx, ?iny, ?dex, ?dey⟩⟩
  case inx => exact aluInc_toNat s.ix ▸ registerNZ_next_get State.ix State.setIx _ s rfl rfl fun _ _ => rfl
  case iny => exact aluInc_toNat s.iy ▸ registerNZ_next_get State.iy State.setIy _ s rfl rfl fun _ _ => rfl
  case dex => exact aluDec_toNat s.ix ▸ registerNZ_next_get State.ix State.setIx _ s rfl rfl fun _ _ => rfl
  case dey => exact aluDec_toNat s.iy ▸ registerNZ_next_get State.iy State.setIy _ s rfl rfl fun _ _ => rfl

/-- Settles O39: each of the seven is `flagWrite` of its bit. -/
theorem flagInstructionsWriteOneBit : Obligations.FlagInstructionsWriteOneBit := by
  refine ⟨by decide, by decide, by decide, by decide, by decide, by decide, by decide, fun i f b s h => ?_⟩
  have meaning : exec i s = flagWrite f b s := by
    simp only [List.mem_cons, Prod.mk.injEq, List.not_mem_nil, or_false] at h
    rcases h with ⟨rfl, rfl, rfl⟩ | ⟨rfl, rfl, rfl⟩ | ⟨rfl, rfl, rfl⟩ | ⟨rfl, rfl, rfl⟩ | ⟨rfl, rfl, rfl⟩ |
      ⟨rfl, rfl, rfl⟩ | ⟨rfl, rfl, rfl⟩ <;> rfl
  rw [meaning]
  exact flagWrite_next f b s

/-- Settles O40: all but TXS are a register write with Z and N from the source; TXS writes `sp` and `pc` alone. -/
theorem transfersCopyOneRegister : Obligations.TransfersCopyOneRegister := by
  refine ⟨by decide, by decide, by decide, by decide, by decide, by decide,
    fun s => ⟨?tax, ?txa, ?tay, ?tya, ?tsx, ?txs⟩⟩
  case tax => exact registerNZ_next State.setIx s.acc s rfl
  case txa => exact registerNZ_next State.setAcc s.ix s rfl
  case tay => exact registerNZ_next State.setIy s.acc s rfl
  case tya => exact registerNZ_next State.setAcc s.iy s rfl
  case tsx => exact registerNZ_next State.setIx s.sp s rfl
  case txs => exact ⟨_, rfl, pcAdvances_advance rfl 1, rfl⟩

end Sys2Proof.Machine
end

section
/-! PROOFS. The obligations of `45_system.md`. -/

namespace Sys2Proof.Machine

/-- NOP is the advance past its opcode byte (R241). -/
theorem exec_nop (s : State) : exec .nop s = .next (s.advance 1) := rfl

/-- Settles O42: NOP is the advance of `pc` by 1, which writes no other field. -/
theorem nopOnlyAdvances : Obligations.NopOnlyAdvances := by
  refine ⟨by decide, fun s => ⟨s.advance 1, exec_nop s, ?pc, ?frame⟩⟩
  case pc => exact pcAdvances_advance rfl 1
  case frame => rfl

end Sys2Proof.Machine
end

section
/-! SUPPORT. What a step can fault with: `DecodeError` at fetch and decode and nowhere else (`60_exceptions.md` R301, R302,
R306), and what a fault leaves (R304). -/

namespace Sys2Proof.Machine

/-! ### An instruction's rule -/

/-- JMP indirect at 0xFFFF faults at the pointer's high byte (`42_branch_jump.md` R181, `60_exceptions.md` R302). -/
theorem execJmpInd_top (s : State) : execJmpInd 0xFFFF s = .fault (.memoryBounds 65536) := rfl

/-- Every rule but that one answers a next state. -/
theorem exec_next {i : Instr} (h : i ≠ .jmpInd 0xFFFF) (s : State) : ∃ t, exec i s = .next t :=
  match shape i with
  | .arith _ _ eq .. | .compare _ _ eq .. | .loadAcc _ eq .. | .loadIx _ eq .. | .loadIy _ eq .. | .store _ _ eq ..
  | .logic _ _ eq .. | .bit _ eq .. | .shiftAcc _ eq .. | .shiftMem _ _ eq .. | .bump _ _ eq .. | .toAcc _ eq ..
  | .toIx _ eq .. | .toIy _ eq .. | .flagWrite _ _ eq .. => ⟨_, eq s⟩
  | .branch f want d eq .. =>
    have ⟨_, next⟩ := branchOn_next f want d s
    ⟨_, (eq s).trans next⟩
  | .jmpInd a eq => by
    subst eq
    exact ⟨_, execJmpInd_next a s fun top => h (congrArg Instr.jmpInd top)⟩
  | .jmpAbs _ eq | .jsr _ eq | .rts eq | .pha eq | .php eq | .pla eq | .plp eq | .txs eq | .brk eq | .nop eq
  | .rti eq => by
    subst eq
    exact ⟨_, rfl⟩

/-- The one fault an instruction's rule can raise (R302). -/
theorem exec_fault {i : Instr} {s : State} {f : Fault} (h : exec i s = .fault f) :
    i = .jmpInd 0xFFFF ∧ f = .memoryBounds 65536 := by
  by_cases top : i = .jmpInd 0xFFFF
  · subst top
    cases h.symm.trans (execJmpInd_top s)
    exact ⟨rfl, rfl⟩
  · obtain ⟨t, next⟩ := exec_next top s
    cases h.symm.trans next

/-! ### Fetch and decode -/

/-- The first byte the decoder looks at is the one at `pc`: no `pc` lies past the end of memory (`30_encoding.md` R121). -/
theorem codeBytes_eq_cons (s : State) : ∃ operands, s.codeBytes = s.read s.pc :: operands := by
  simp only [State.codeBytes, State.fetchRun, fetch_below s (addr_lt_memSize s.pc)]
  exact ⟨_, rfl⟩

/-- The decoder reports an undefined opcode exactly when the first byte has no table entry, and reports that byte (R84). -/
theorem decode_undefinedOpcode_iff {b op : Byte} {bs : List Byte} :
    decode (b :: bs) = .error (.undefinedOpcode op) ↔ decodeOpcode op = none ∧ op = b := by
  constructor
  · intro h
    simp only [decode] at h
    split at h
    · next undefined =>
      cases h
      exact ⟨undefined, rfl⟩
    · split at h
      · cases h
      · split at h <;> cases h
  · rintro ⟨undefined, rfl⟩
    simp only [decode, undefined]

theorem fetchDecode_decodeError_iff {s : State} {op : Byte} {a : Addr} :
    s.fetchDecode = .error (.decodeError op a) ↔ decodeOpcode op = none ∧ op = s.read s.pc ∧ a = s.pc := by
  obtain ⟨operands, bytes⟩ := codeBytes_eq_cons s
  constructor
  · intro h
    unfold State.fetchDecode at h
    split at h <;> cases h
    next rejected =>
      rw [bytes] at rejected
      obtain ⟨undefined, first⟩ := decode_undefinedOpcode_iff.mp rejected
      exact ⟨undefined, first, rfl⟩
  · rintro ⟨undefined, first, rfl⟩
    simp only [State.fetchDecode, bytes, decode_undefinedOpcode_iff.mpr ⟨undefined, first⟩]

/-! ### The step -/

/-- A step that is running raises `DecodeError` exactly where fetch and decode do: no instruction's rule raises it (R301). -/
theorem step_decodeError_iff {s : State} (running : s.fault = none) {op : Byte} {a : Addr} :
    step s = .fault (.decodeError op a) ↔ s.fetchDecode = .error (.decodeError op a) := by
  constructor
  · intro h
    obtain recorded | ⟨-, atFetch | ⟨i, -, atExec⟩⟩ := step_fault h
    · cases running.symm.trans recorded
    · exact atFetch
    · cases (exec_fault atExec).2
  · intro h
    simp only [step, running, h]

/-- A faulting step leaves the two latches and the fault record (R304). -/
theorem afterStep_fault {s : State} {f : Fault} (running : s.fault = none) (h : step s = .fault f) :
    s.afterStep = s.latch.setFault (some f) := by
  simp only [State.afterStep, running, h]

end Sys2Proof.Machine
end

section
/-! PROOFS. The obligations of `60_exceptions.md`. -/

namespace Sys2Proof.Machine

/-- Settles O6: fetch and decode alone raise `DecodeError`, and what the fault leaves is the latched state. -/
theorem undefinedOpcodeFaults : Obligations.UndefinedOpcodeFaults := by
  intro s running
  have raised (op : Byte) (a : Addr) : step s = .fault (.decodeError op a) ↔
      decodeOpcode op = none ∧ op = s.read s.pc ∧ a = s.pc :=
    (step_decodeError_iff running).trans fetchDecode_decodeError_iff
  refine ⟨raised, fun undefined => ?_⟩
  rw [afterStep_fault running ((raised _ _).mpr ⟨undefined, rfl, rfl⟩)]
  exact ⟨rfl, rfl⟩

end Sys2Proof.Machine
end

section
/-! SUPPORT. The opcode table read from its rows: no opcode twice, every opcode byte in it or in R94's list, and bytes that
decode are the encoding of what they decode to (`30_encoding.md` R80 to R94). -/

namespace Sys2Proof.Machine

/-! ### A well-formed table -/

/-- The head row has its format's length and no later row has its opcode; the tail is well formed. -/
theorem tableWellFormed_cons {r : Byte × TableEntry} {t : List (Byte × TableEntry)} :
    tableWellFormed (r :: t) = true ↔
      r.2.length = r.2.mode.length ∧ (∀ q ∈ t, q.1 ≠ r.1) ∧ tableWellFormed t = true := by
  simp [tableWellFormed, TableEntry.lengthFits, and_assoc]

/-- A well-formed table answers each of its rows for that row's opcode (R85). -/
theorem lookup_of_mem {t : List (Byte × TableEntry)} (h : tableWellFormed t = true) {r : Byte × TableEntry}
    (hr : r ∈ t) : t.lookup r.1 = some r.2 := by
  induction t with
  | nil => cases hr
  | cons q t ih =>
    obtain ⟨-, apart, rest⟩ := tableWellFormed_cons.mp h
    obtain rfl | hr := List.mem_cons.mp hr
    · exact List.lookup_cons_self
    · rw [List.lookup_cons, beq_eq_false_iff_ne.mpr (apart r hr)]
      exact ih rest hr

theorem length_of_mem {t : List (Byte × TableEntry)} (h : tableWellFormed t = true) {r : Byte × TableEntry}
    (hr : r ∈ t) : r.2.length = r.2.mode.length := by
  induction t with
  | nil => cases hr
  | cons q t ih =>
    obtain ⟨length, -, rest⟩ := tableWellFormed_cons.mp h
    obtain rfl | hr := List.mem_cons.mp hr
    · exact length
    · exact ih rest hr

theorem nodup_opcodes {t : List (Byte × TableEntry)} (h : tableWellFormed t = true) : (t.map Prod.fst).Nodup := by
  induction t with
  | nil => exact List.nodup_nil
  | cons q t ih =>
    obtain ⟨-, apart, rest⟩ := tableWellFormed_cons.mp h
    refine List.nodup_cons.mpr ⟨fun again => ?_, ih rest⟩
    obtain ⟨r, hr, same⟩ := List.mem_map.mp again
    exact apart r hr same

theorem tableWellFormed_opcodeTable : tableWellFormed opcodeTable = true := by decide

theorem decodeOpcode_of_mem {r : Byte × TableEntry} (h : r ∈ opcodeTable) : decodeOpcode r.1 = some r.2 :=
  lookup_of_mem tableWellFormed_opcodeTable h

theorem mem_of_decodeOpcode {op : Byte} {e : TableEntry} (h : decodeOpcode op = some e) : (op, e) ∈ opcodeTable := by
  obtain ⟨l₁, l₂, table, -⟩ := List.lookup_eq_some_iff.mp h
  rw [table]
  exact List.mem_append_right l₁ List.mem_cons_self

theorem entry_length {op : Byte} {e : TableEntry} (h : decodeOpcode op = some e) : e.length = e.mode.length :=
  length_of_mem tableWellFormed_opcodeTable (mem_of_decodeOpcode h)

/-! ### The 105 other bytes -/

theorem decodeOpcode_undefined : ∀ op ∈ undefinedOpcodes, decodeOpcode op = none := by
  have checked : undefinedOpcodes.all (fun op => decide (decodeOpcode op = none)) = true := by decide
  simpa using checked

theorem opcodeTable_length : opcodeTable.length = 151 := by
  simp only [opcodeTable, List.length_append]
  rfl

theorem undefinedOpcodes_length : undefinedOpcodes.length = 105 := by decide

theorem nodup_undefinedOpcodes : undefinedOpcodes.Nodup := by
  have ascending : undefinedOpcodes.IsChain (· < ·) := by simp [undefinedOpcodes]
  exact ascending.pairwise.nodup

/-- The 151 opcodes and the 105 listed bytes are 256 different bytes, so they are all bytes (R94). -/
theorem mem_opcodes_or_undefined (op : Byte) : op ∈ opcodeTable.map Prod.fst ∨ op ∈ undefinedOpcodes := by
  have distinct : (opcodeTable.map Prod.fst ++ undefinedOpcodes).Nodup := by
    refine List.Nodup.append (nodup_opcodes tableWellFormed_opcodeTable) nodup_undefinedOpcodes fun b defined undefined => ?_
    obtain ⟨r, hr, rfl⟩ := List.mem_map.mp defined
    cases (decodeOpcode_of_mem hr).symm.trans (decodeOpcode_undefined r.1 undefined)
  have count : (opcodeTable.map Prod.fst ++ undefinedOpcodes).length = Fintype.card Byte := by
    rw [List.length_append, List.length_map, opcodeTable_length, undefinedOpcodes_length,
      ← FinEnum.card_eq_fintypeCard, FinEnum.card_bitVec]
    rfl
  have all := Finset.eq_univ_of_card _ ((List.toFinset_card_of_nodup distinct).trans count)
  exact List.mem_append.mp (List.mem_toFinset.mp (all ▸ Finset.mem_univ op))

theorem decodeOpcode_eq_none_iff (op : Byte) : decodeOpcode op = none ↔ op ∈ undefinedOpcodes := by
  refine ⟨fun h => ?_, decodeOpcode_undefined op⟩
  obtain defined | undefined := mem_opcodes_or_undefined op
  · obtain ⟨r, hr, rfl⟩ := List.mem_map.mp defined
    cases (decodeOpcode_of_mem hr).symm.trans h
  · exact undefined

/-! ### What a row builds -/

/-- The operand bytes an instruction of `len` bytes keeps of `b1` and `b2` (R80, R81). -/
def keptOperands (len : Nat) (b1 b2 : Byte) : List Byte :=
  match len with
  | 1 => []
  | 2 => [b1]
  | _ => littleEndian (word16 b2 b1)

/-- The handler has a case for the row, and what it builds from `b1` and `b2` is written as the row's opcode and as many of
the two bytes as the row's length leaves (R124). -/
def buildsItsRow (r : Byte × TableEntry) : Prop :=
  ∃ build, handlerVariant r.2.mnemonic r.2.mode = some build ∧
    ∀ b1 b2, encode (build b1 b2) = r.1 :: keptOperands r.2.length b1 b2

theorem buildsItsRow_of_mem : ∀ r ∈ opcodeTable, buildsItsRow r := by
  simp only [opcodeTable, opcodeRows0, opcodeRows1, opcodeRows2, opcodeRows3, opcodeRows4, opcodeRows5, opcodeRows6,
    opcodeRows7, opcodeRows8, opcodeRows9, opcodeRowsA, opcodeRowsB, opcodeRowsC, opcodeRowsD, opcodeRowsE, opcodeRowsF,
    List.forall_mem_append, List.forall_mem_cons, List.not_mem_nil,
    IsEmpty.forall_iff, implies_true, and_true]
  repeat' apply And.intro
  all_goals exact ⟨_, rfl, fun _ _ => rfl⟩

/-! ### Encode of decode -/

theorem takeOperands_eq_some {len : Nat} {bs rest : List Byte} {b1 b2 : Byte}
    (h : takeOperands len bs = some (b1, b2, rest)) : bs = keptOperands len b1 b2 ++ rest := by
  unfold takeOperands at h
  split at h <;> cases h
  · rfl
  · rfl
  · simp [keptOperands, littleEndian]

/-- Bytes that decode to an instruction begin with a defined opcode, and go through its handler's case. -/
theorem decode_eq_ok {bs rest : List Byte} {i : Instr} (h : decode bs = .ok (i, rest)) :
    ∃ op tail e build b1 b2, bs = op :: tail ∧ decodeOpcode op = some e ∧
      handlerVariant e.mnemonic e.mode = some build ∧ takeOperands e.length tail = some (b1, b2, rest) ∧
      build b1 b2 = i := by
  cases bs with
  | nil => cases h
  | cons op tail =>
    simp only [decode] at h
    split at h
    · cases h
    next e entry =>
    split at h
    · cases h
    next build arm =>
    split at h
    · cases h
    next b1 b2 rest' operands =>
    cases h
    exact ⟨op, tail, e, build, b1, b2, rfl, entry, arm, operands, rfl⟩

/-- Bytes that decode to an instruction are its encoding and what follows it (R80, R81, R93). -/
theorem eq_encode_append_of_decode {bs rest : List Byte} {i : Instr} (h : decode bs = .ok (i, rest)) :
    bs = encode i ++ rest := by
  obtain ⟨op, tail, e, build, b1, b2, rfl, entry, arm, operands, rfl⟩ := decode_eq_ok h
  obtain ⟨build', arm', written⟩ := buildsItsRow_of_mem _ (mem_of_decodeOpcode entry)
  cases arm.symm.trans arm'
  rw [written, List.cons_append, ← takeOperands_eq_some operands]

end Sys2Proof.Machine
end

section
/-! PROOFS. The obligations of `30_encoding.md` about the decoder. -/

namespace Sys2Proof.Machine

/-- Settles O2: each row's handler case rebuilds what the encoder writes, and writes what the decoder read. -/
theorem decodeEncodeAgree : Obligations.DecodeEncodeAgree :=
  ⟨decode_encode_append, fun _ _ _ => eq_encode_append_of_decode⟩

/-- Settles O3: the table is well formed, and the 105 bytes are those it leaves. -/
theorem definedOpcodesAreExactlyTheTable : Obligations.DefinedOpcodesAreExactlyTheTable :=
  ⟨opcodeTable_length, undefinedOpcodes_length, tableWellFormed_opcodeTable, fun _ => decodeOpcode_of_mem, decodeOpcode_eq_none_iff⟩

/-- The three lengths and their formats (R82). -/
theorem mode_length (m : Mode) :
    (m.length = 1 ↔ m ∈ [Mode.IMP, .ACC]) ∧
    (m.length = 2 ↔ m ∈ [Mode.IMM, .ZP, .ZPX, .ZPY, .REL, .IZX, .IZY]) ∧
    (m.length = 3 ↔ m ∈ [Mode.ABS, .ABX, .ABY, .IND]) := by
  cases m <;> decide

/-- Settles O4: an entry's length is its format's, and the decoded instruction's own opcode has that entry. -/
theorem lengthFollowsFromOpcode : Obligations.LengthFollowsFromOpcode := by
  refine ⟨fun op e entry => ?_, ⟨_, rfl, rfl, rfl⟩, fun op bs i rest decoded => ?_⟩
  · rw [entry_length entry]
    exact mode_length e.mode
  · have bytes := eq_encode_append_of_decode decoded
    obtain ⟨e, entry, mnemonic, mode, length⟩ := decodeOpcode_opcode i
    obtain ⟨rfl, -⟩ := List.cons.inj bytes
    have count := congrArg List.length bytes
    rw [List.length_append, encode_length, List.length_cons, ← length] at count
    exact ⟨e, entry, mnemonic, mode, length, by omega⟩

/-- Settles O1: each word by evaluation of the decoder. -/
theorem writtenWordsDecode : Obligations.WrittenWordsDecode := by
  refine ⟨rfl, rfl, rfl, rfl, rfl, rfl, rfl, rfl, rfl, rfl, rfl, rfl, rfl, rfl, rfl, rfl, rfl, rfl⟩

/-- Settles O15: row by row, bit by bit. -/
theorem flagsAffectedNamesTheWriters : Obligations.FlagsAffectedNamesTheWriters := by
  have agree (f : Flag) :
      opcodeTable.all (fun r => decide (f ∈ r.2.flags ↔ r.2.mnemonic ∈ flagWriters f)) = true := by
    cases f <;> decide
  intro r hr f
  exact of_decide_eq_true (List.all_eq_true.mp (agree f) r hr)

end Sys2Proof.Machine
end

section
/-! SUPPORT. What an instruction's rule may change: only what the lists of the spec name it a writer of (`10_state.md` R21 to
R29, R34 to R39). -/

namespace Sys2Proof.Machine

/-! ### The bits a new `stat` keeps -/

theorem keepsFlags_statCZN {out : AluOut} {s t : State} (stat : t.stat = statCZN out s.stat) :
    keepsFlags [.C, .Z, .N] s t := by
  intro f hf
  simp only [List.mem_cons, List.not_mem_nil, or_false, not_or] at hf
  simp [State.flag, stat, getFlag_statCZN, hf]

theorem keepsFlags_statCVZN {out : AluOut} {s t : State} (stat : t.stat = statCVZN out s.stat) :
    keepsFlags [.C, .V, .Z, .N] s t := by
  intro f hf
  simp only [List.mem_cons, List.not_mem_nil, or_false, not_or] at hf
  simp [State.flag, stat, getFlag_statCVZN, hf]

theorem keepsFlags_statBit {a m : Byte} {s t : State} (stat : t.stat = statBit a m s.stat) :
    keepsFlags [.Z, .N, .V] s t := by
  intro f hf
  simp only [List.mem_cons, List.not_mem_nil, or_false, not_or] at hf
  simp [State.flag, stat, getFlag_statBit, hf]

theorem keepsFlags_putFlag {g : Flag} {b : Bool} {s t : State} (stat : t.stat = putFlag g b s.stat) :
    keepsFlags [g] s t := by
  intro f hf
  rw [State.flag, stat]
  exact getFlag_putFlag_other (by simpa using hf) b s.stat

/-! ### The frame of an instruction -/

/-- The mnemonic is a listed writer of the value, or the value is unchanged. -/
def writesOrKeeps {α : Type} (writers : List Mnemonic) (m : Mnemonic) (before after : α) : Prop :=
  m ∈ writers ∨ after = before

theorem writesOrKeeps_of_mem {α : Type} {writers ms : List Mnemonic} {m : Mnemonic} {before after : α} (mn : m ∈ ms)
    (listed : ms ⊆ writers) : writesOrKeeps writers m before after :=
  .inl (listed mn)

/-- All bits but those in a list are unchanged, and the mnemonic is a listed writer of each bit in it (R28, R29). -/
def writesOrKeepsFlags (m : Mnemonic) (s t : State) : Prop :=
  ∃ written, keepsFlags written s t ∧ ∀ f ∈ written, m ∈ flagWriters f

theorem writesOrKeepsFlags_of_mem {written : List Flag} {ms : List Mnemonic} {m : Mnemonic} {s t : State} (mn : m ∈ ms)
    (kept : keepsFlags written s t) (listed : ∀ f ∈ written, ms ⊆ flagWriters f) : writesOrKeepsFlags m s t :=
  ⟨written, kept, fun f hf => listed f hf mn⟩

/-- PLP and RTI may write every bit. -/
theorem writesOrKeepsFlags_all {m : Mnemonic} (listed : ∀ f, m ∈ flagWriters f) (s t : State) : writesOrKeepsFlags m s t :=
  ⟨[.C, .Z, .I, .D, .B, .U, .V, .N], fun f hf => by cases f <;> simp at hf, fun f _ => listed f⟩

/-- What running `i` from `s` to `t` may have changed. A part that is not given says that nothing was. -/
structure Frame (i : Instr) (s t : State) : Prop where
  ir : t.ir = s.ir := by exact rfl
  decoded : t.decoded = s.decoded := by exact rfl
  fault : t.fault = s.fault := by exact rfl
  acc : writesOrKeeps accWriters i.mnemonic s.acc t.acc := by exact .inr rfl
  ix : writesOrKeeps ixWriters i.mnemonic s.ix t.ix := by exact .inr rfl
  iy : writesOrKeeps iyWriters i.mnemonic s.iy t.iy := by exact .inr rfl
  sp : writesOrKeeps spWriters i.mnemonic s.sp t.sp := by exact .inr rfl
  mem : writesOrKeeps memoryWriters i.mnemonic s.mem t.mem := by exact .inr rfl
  wf : Memory.wf s.mem = true → Memory.wf t.mem = true := by exact id
  flags : writesOrKeepsFlags i.mnemonic s t := by exact ⟨[], fun _ _ => rfl, nofun⟩
  pc : i.mnemonic ∈ controlTransfers ∨ pcAdvances i.length s t

/-- A rule that ends in an advance by the instruction's length (R26). -/
theorem advances_length {i : Instr} {s u : State} {n : Nat} (len : n = i.length) (pc : u.pc = s.pc) :
    i.mnemonic ∈ controlTransfers ∨ pcAdvances i.length s (u.advance n) :=
  .inr (len ▸ pcAdvances_advance pc n)

/-- JMP indirect, where it answers a next state, writes `pc` only. -/
theorem execJmpInd_eq_next {a : Addr} {s t : State} (h : execJmpInd a s = .next t) :
    a ≠ 0xFFFF ∧ t = s.setPc (s.read16 a) := by
  by_cases top : a = 0xFFFF
  · subst top
    cases (execJmpInd_top s).symm.trans h
  · cases (execJmpInd_next a s top).symm.trans h
    exact ⟨top, rfl⟩

theorem pushWord_frame (s : State) (w : Addr) :
    s.pushWord w = { s with sp := s.sp - 1 - 1, mem := (s.pushWord w).mem } := by
  unfold State.pushWord State.push State.setSp State.write State.setMem
  rfl

theorem pushWord_wf (s : State) (w : Addr) (h : Memory.wf s.mem = true) : Memory.wf (s.pushWord w).mem = true :=
  push_wf _ _ (push_wf s _ h)

theorem exec_jsr (a : Addr) (s : State) :
    exec (.jsr a) s = .next { s with sp := s.sp - 1 - 1, pc := a, mem := (s.pushWord (s.pc + 2)).mem } :=
  congrArg (fun t => Host.Outcome.next (State.setPc t a)) (pushWord_frame s (s.pc + 2))

theorem trapEntry_wf (s : State) (h : Memory.wf s.mem = true) : Memory.wf (State.trapEntry Config.params s).mem = true := by
  obtain ⟨target, saved⟩ := trapEntry_saves s
  rw [saved]
  exact push_wf _ _ (pushWord_wf (s.setStat _) _ h)

theorem exec_frame {i : Instr} {s t : State} (h : exec i s = .next t) : Frame i s t := by
  cases shape i with
  | arith alu o eq mn len =>
    cases (eq s).symm.trans h
    exact { acc := writesOrKeeps_of_mem mn (by decide), pc := advances_length len rfl
            flags := writesOrKeepsFlags_of_mem mn (keepsFlags_statCVZN rfl) (by decide) }
  | compare rd o eq mn src len =>
    cases (eq s).symm.trans h
    exact { pc := advances_length len rfl
            flags := writesOrKeepsFlags_of_mem mn (keepsFlags_statCZN rfl) (by decide) }
  | loadAcc o eq mn len =>
    cases (eq s).symm.trans h
    exact { acc := writesOrKeeps_of_mem mn (by decide), pc := advances_length len rfl
            flags := writesOrKeepsFlags_of_mem mn (keepsFlags_of_stat rfl) (by decide) }
  | loadIx o eq mn len =>
    cases (eq s).symm.trans h
    exact { ix := writesOrKeeps_of_mem mn (by decide), pc := advances_length len rfl
            flags := writesOrKeepsFlags_of_mem mn (keepsFlags_of_stat rfl) (by decide) }
  | loadIy o eq mn len =>
    cases (eq s).symm.trans h
    exact { iy := writesOrKeeps_of_mem mn (by decide), pc := advances_length len rfl
            flags := writesOrKeepsFlags_of_mem mn (keepsFlags_of_stat rfl) (by decide) }
  | store rd q eq mn src len =>
    cases (eq s).symm.trans h
    exact { mem := writesOrKeeps_of_mem mn (by decide), wf := write_wf s _ _, pc := advances_length len rfl }
  | logic op o eq mn len =>
    cases (eq s).symm.trans h
    exact { acc := writesOrKeeps_of_mem mn (by decide), pc := advances_length len rfl
            flags := writesOrKeepsFlags_of_mem mn (keepsFlags_of_stat rfl) (by decide) }
  | bit o eq mn len =>
    cases (eq s).symm.trans h
    exact { pc := advances_length len rfl
            flags := writesOrKeepsFlags_of_mem mn (keepsFlags_statBit rfl) (by decide) }
  | shiftAcc op eq mn md len =>
    cases (eq s).symm.trans h
    exact { acc := writesOrKeeps_of_mem mn (by decide), pc := advances_length len rfl
            flags := writesOrKeepsFlags_of_mem mn (keepsFlags_statCZN rfl) (by decide) }
  | shiftMem op q eq mn md len =>
    cases (eq s).symm.trans h
    exact { mem := writesOrKeeps_of_mem mn (by decide), wf := write_wf s _ _, pc := advances_length len rfl
            flags := writesOrKeepsFlags_of_mem mn (keepsFlags_statCZN rfl) (by decide) }
  | bump op q eq mn len =>
    cases (eq s).symm.trans h
    exact { mem := writesOrKeeps_of_mem mn (by decide), wf := write_wf s _ _, pc := advances_length len rfl
            flags := writesOrKeepsFlags_of_mem mn (keepsFlags_of_stat rfl) (by decide) }
  | toAcc rd eq mn src len =>
    cases (eq s).symm.trans h
    exact { acc := writesOrKeeps_of_mem mn (by decide), pc := advances_length len rfl
            flags := writesOrKeepsFlags_of_mem mn (keepsFlags_of_stat rfl) (by decide) }
  | toIx rd eq mn src len =>
    cases (eq s).symm.trans h
    exact { ix := writesOrKeeps_of_mem mn (by decide), pc := advances_length len rfl
            flags := writesOrKeepsFlags_of_mem mn (keepsFlags_of_stat rfl) (by decide) }
  | toIy rd eq mn src len =>
    cases (eq s).symm.trans h
    exact { iy := writesOrKeeps_of_mem mn (by decide), pc := advances_length len rfl
            flags := writesOrKeepsFlags_of_mem mn (keepsFlags_of_stat rfl) (by decide) }
  | flagWrite f b eq mn len =>
    cases (eq s).symm.trans h
    have listed : i.mnemonic ∈ flagWriters f := by
      refine (?_ : ∀ p ∈ _, p.1 ∈ flagWriters p.2) (i.mnemonic, f) mn
      decide
    exact { pc := advances_length len rfl, flags := ⟨[f], keepsFlags_putFlag rfl, by simpa using listed⟩ }
  | branch f want d eq mn len =>
    obtain ⟨target, next⟩ := branchOn_next f want d s
    cases ((eq s).trans next).symm.trans h
    have listed : i.mnemonic ∈ controlTransfers := by
      refine (?_ : ∀ p ∈ _, p.1 ∈ controlTransfers) (i.mnemonic, f) mn
      decide
    exact { pc := .inl listed }
  | jmpAbs a eq =>
    subst eq
    cases h
    exact { pc := .inl (by decide : Mnemonic.JMP ∈ controlTransfers) }
  | jmpInd a eq =>
    subst eq
    obtain ⟨-, rfl⟩ := execJmpInd_eq_next h
    exact { pc := .inl (by decide : Mnemonic.JMP ∈ controlTransfers) }
  | jsr a eq =>
    subst eq
    cases (exec_jsr a s).symm.trans h
    exact { sp := .inl (by decide : Mnemonic.JSR ∈ spWriters), mem := .inl (by decide : Mnemonic.JSR ∈ memoryWriters)
            wf := pushWord_wf s _, pc := .inl (by decide : Mnemonic.JSR ∈ controlTransfers) }
  | rts eq =>
    subst eq
    cases h
    exact { sp := .inl (by decide), pc := .inl (by decide) }
  | pha eq =>
    subst eq
    cases h
    exact { sp := .inl (by decide), mem := .inl (by decide), wf := push_wf s _, pc := advances_length rfl rfl }
  | php eq =>
    subst eq
    cases h
    exact { sp := .inl (by decide), mem := .inl (by decide), wf := push_wf s _, pc := advances_length rfl rfl }
  | pla eq =>
    subst eq
    cases h
    exact { acc := .inl (by decide), sp := .inl (by decide), mem := .inl (by decide)
            wf := write_wf (s.setSp (s.sp + 1)) (stackAddr (s.sp + 1)) 0
            flags := ⟨[.Z, .N], keepsFlags_of_stat rfl, by decide⟩, pc := advances_length rfl rfl }
  | plp eq =>
    subst eq
    cases h
    exact { sp := .inl (by decide), mem := .inl (by decide)
            wf := write_wf (s.setSp (s.sp + 1)) (stackAddr (s.sp + 1)) 0
            flags := writesOrKeepsFlags_all (fun f => by cases f <;> decide) _ _, pc := advances_length rfl rfl }
  | txs eq =>
    subst eq
    cases h
    exact { sp := .inl (by decide), pc := advances_length rfl rfl }
  | brk eq =>
    subst eq
    cases (congrArg Host.Outcome.next (trapEntry_frame s)).symm.trans h
    exact { sp := .inl (by decide), mem := .inl (by decide), pc := .inl (by decide), wf := trapEntry_wf s
            flags := ⟨[.B], keepsFlags_putFlag (rfl : _ = putFlag .B true s.stat), by decide⟩ }
  | nop eq =>
    subst eq
    cases h
    exact { pc := advances_length rfl rfl }
  | rti eq =>
    subst eq
    cases (congrArg Host.Outcome.next (trapReturn_eq s)).symm.trans h
    exact { sp := .inl (by decide), flags := writesOrKeepsFlags_all (fun f => by cases f <;> decide) _ _
            pc := .inl (by decide) }

end Sys2Proof.Machine
end

section
/-! SUPPORT. The instruction that stands at `pc`: the defined opcode there and the operand bytes after it are the bytes of
one instruction, whose row is that opcode's (`30_encoding.md` R121 to R123). -/

namespace Sys2Proof.Machine

/-- No rule refuses: it answers a next state or, JMP indirect at 0xFFFF, the one fault. -/
theorem exec_ne_refused (i : Instr) (s : State) (r : Refusal) : exec i s ≠ .refused r := by
  intro h
  by_cases top : i = .jmpInd 0xFFFF
  · subst top
    cases h.symm.trans (execJmpInd_top s)
  · obtain ⟨t, next⟩ := exec_next top s
    cases h.symm.trans next

/-- Of two bytes in a row, the kept operand bytes are the first ones. -/
theorem keptOperands_getElem (byteAt : Nat → Byte) {len k : Nat}
    (h : k < (keptOperands len (byteAt 1) (byteAt 2)).length) :
    (keptOperands len (byteAt 1) (byteAt 2))[k] = byteAt (k + 1) := by
  unfold keptOperands at h ⊢
  split at h
  · cases h
  · cases Nat.lt_one_iff.mp h
    rfl
  · simp only [littleEndian, lowByte_word16, highByte_word16, List.length_cons, List.length_nil] at h ⊢
    match k, h with
    | 0, _ => rfl
    | 1, _ => rfl

/-- Memory holds the bytes of `i` from `pc` on. -/
def standsAt (i : Instr) (s : State) : Prop :=
  ∀ (k : Nat) (h : k < (encode i).length), Memory.read s.mem (s.pc.toNat + k) = (encode i)[k]'h

/-- Under a defined opcode at `pc` stands an instruction of that opcode's row. -/
theorem exists_instr_at {s : State} {e : TableEntry} (entry : decodeOpcode (s.read s.pc) = some e) :
    ∃ i : Instr, i.opcode = s.read s.pc ∧ i.mnemonic = e.mnemonic ∧ i.mode = e.mode ∧ i.length = e.length ∧
      standsAt i s := by
  obtain ⟨build, -, written⟩ := buildsItsRow_of_mem _ (mem_of_decodeOpcode entry)
  have bytes := written (Memory.read s.mem (s.pc.toNat + 1)) (Memory.read s.mem (s.pc.toNat + 2))
  generalize build (Memory.read s.mem (s.pc.toNat + 1)) (Memory.read s.mem (s.pc.toNat + 2)) = i at bytes
  have opcode : i.opcode = s.read s.pc := (List.cons.inj bytes).1
  obtain ⟨e', entry', mnemonic, mode, length⟩ := decodeOpcode_opcode i
  rw [opcode] at entry'
  cases entry.symm.trans entry'
  refine ⟨i, opcode, mnemonic.symm, mode.symm, length.symm, fun k h => ?_⟩
  rw [List.getElem_of_eq bytes h]
  cases k with
  | zero => rfl
  | succ k => exact (keptOperands_getElem (fun n => Memory.read s.mem (s.pc.toNat + n)) _).symm

/-- The step on an instruction that stands at `pc` inside memory, on the state with both latches written. -/
theorem step_of_fits {s : State} {i : Instr} (running : s.fault = none) (fits : s.pc.toNat + i.length ≤ 65536)
    (code : standsAt i s) :
    step s = exec i s.latch :=
  step_running running (fetchDecode_of_prefix (encode_prefix_codeBytes fits fun k h _ => code k h))

/-- The step on an instruction that stands at `pc` and does not end inside memory (R302). -/
theorem step_of_past {s : State} {i : Instr} (running : s.fault = none) (past : 65536 < s.pc.toNat + i.length)
    (code : standsAt i s) :
    step s = .fault (.memoryBounds 65536) := by
  rw [runsFromMemory_all i s running fun k h _ => code k h, if_neg (Nat.not_le.mpr past)]

theorem step_ne_refused (s : State) (r : Refusal) : step s ≠ .refused r := by
  intro h
  unfold step at h
  split at h
  · cases h
  · split at h
    · cases h
    · exact exec_ne_refused _ _ r h

theorem step_undefined {s : State} (running : s.fault = none) (undefined : decodeOpcode (s.read s.pc) = none) :
    step s = .fault (.decodeError (s.read s.pc) s.pc) :=
  (step_decodeError_iff running).mpr (fetchDecode_decodeError_iff.mpr ⟨undefined, rfl, rfl⟩)

/-- The instruction at `pc` is JMP indirect at 0xFFFF exactly when it is a JMP indirect with both operand bytes 0xFF. -/
theorem eq_jmpInd_top_iff {i : Instr} {s : State} (code : standsAt i s) :
    i = .jmpInd 0xFFFF ↔ i.mnemonic = .JMP ∧ i.mode = .IND ∧ Memory.read s.mem (s.pc.toNat + 1) = 0xFF ∧
      Memory.read s.mem (s.pc.toNat + 2) = 0xFF := by
  constructor
  · rintro rfl
    exact ⟨rfl, rfl, code 1 (by decide), code 2 (by decide)⟩
  · rintro ⟨mnemonic, mode, low, high⟩
    match i, mnemonic, mode with
    | .jmpInd a, _, _ =>
      have low : lowByte a = 0xFF := (code 1 (by decide : 1 < 3)).symm.trans low
      have high : highByte a = 0xFF := (code 2 (by decide : 2 < 3)).symm.trans high
      rw [← word16_high_low a, low, high]
      rfl

end Sys2Proof.Machine
end

section
/-! PROOFS. The obligations about the step and the fault it may raise (`30_encoding.md` R120 to R123, `60_exceptions.md` R301
to R306). -/

namespace Sys2Proof.Machine

/-- Settles O5: a step is fetch, decode and the decoded instruction's rule on the latched state. -/
theorem stepRunsTheDecodedInstruction : Obligations.StepRunsTheDecodedInstruction := by
  refine ⟨?stuck, fun s => step_undefined, ?decoded, ?entry, runsFromMemory_all, step_ne_refused⟩
  case stuck =>
    intro s faulted t h
    exact faulted (step_next h).1
  case decoded =>
    intro i rest s running bytes
    have fetched : s.fetchDecode = .ok i := by simp only [State.fetchDecode, bytes]
    exact step_running running fetched
  case entry =>
    intro s e running entry fits
    obtain ⟨i, -, mnemonic, mode, length, code⟩ := exists_instr_at entry
    refine ⟨i, mnemonic, mode, (encode_length i).trans length, fun k h => (code k h).symm, ?_⟩
    rw [step_of_fits running (length ▸ fits) code, ← entry]
    rfl

/-- Settles O7: past an undefined opcode and a missing operand byte, the one fault left is that of the rule at `pc`. -/
theorem stepFaultsExactlyWhenTheSpecSays : Obligations.StepFaultsExactlyWhenTheSpecSays := by
  intro s running
  split
  · next undefined => exact step_undefined running undefined
  · next e entry =>
    obtain ⟨i, -, mnemonic, mode, length, code⟩ := exists_instr_at entry
    rw [← mnemonic, ← mode, ← length]
    split
    · next past => exact step_of_past running past code
    next fits =>
    have rule := step_of_fits running (Nat.le_of_not_lt fits) code
    split
    · next bytes =>
      rw [rule, (eq_jmpInd_top_iff code).mpr bytes]
      exact execJmpInd_top s.latch
    · next bytes =>
      obtain ⟨t, next⟩ := exec_next (mt (eq_jmpInd_top_iff code).mp bytes) s.latch
      exact ⟨t, rule.trans next⟩

/-- Settles O8: the state a faulting step leaves is the latched one with the fault recorded. -/
theorem faultChangesOnlyLatchesAndRecord : Obligations.FaultChangesOnlyLatchesAndRecord := by
  intro s f running h
  have left := afterStep_fault running h
  refine ⟨left, fun op a raised => ?_⟩
  subst raised
  obtain ⟨undefined, rfl, -⟩ := fetchDecode_decodeError_iff.mp ((step_decodeError_iff running).mp h)
  rw [left]
  exact undefined

end Sys2Proof.Machine
end

section
/-! SUPPORT. The accumulator forms and the memory forms of the shifts, the branches' two targets, and the stack's page. -/

namespace Sys2Proof.Machine

/-- Whatever has mode ACC is a shift of `acc`, which writes no memory (R154). -/
theorem exec_acc_mem {i : Instr} (mode : i.mode = .ACC) {s t : State} (h : exec i s = .next t) : t.mem = s.mem :=
  match i, mode, h with
  | .aslAcc, _, rfl | .rolAcc, _, rfl | .lsrAcc, _, rfl | .rorAcc, _, rfl => rfl

theorem shiftOp_of_mem {m : Mnemonic} (h : m ∈ [Mnemonic.ASL, .LSR, .ROL, .ROR]) : ∃ op, shiftOp m = some op := by
  simp only [List.mem_cons, List.not_mem_nil, or_false] at h
  rcases h with rfl | rfl | rfl | rfl <;> exact ⟨_, rfl⟩

theorem mode_of_operandOf_acc {i : Instr} (h : operandOf i = some .acc) : i.mode = .ACC := by
  unfold operandOf formatOperand at h
  split at h <;> cases h
  assumption

/-- The memory form of a shift or rotate leaves `acc` alone (R154). -/
theorem exec_shift_acc {i : Instr} (shift : i.mnemonic ∈ [Mnemonic.ASL, .LSR, .ROL, .ROR]) (mode : i.mode ≠ .ACC)
    {s t : State} (h : exec i s = .next t) : t.acc = s.acc := by
  obtain ⟨op, isOp⟩ := shiftOp_of_mem shift
  obtain ⟨o, operand, meaning⟩ := exec_shift i isOp
  obtain ⟨_, next, target, -⟩ := meaning s
  cases next.symm.trans h
  cases o with
  | acc => exact absurd (mode_of_operandOf_acc operand) mode
  | imm => exact target.elim
  | mem q =>
    obtain ⟨frame, -⟩ := target
    rw [frame]

/-! ### The branches -/

/-- The target of a taken branch as a number: `pc + 2 + offset`, the offset signed (R111, R170). -/
theorem branchTarget_toNat (d : Byte) (s : State) :
    ((s.branchTarget d).toNat : Int) = ((s.pc.toNat : Int) + 2 + d.toInt) % 65536 := by
  have := d.isLt
  have two : (2 : Addr).toNat = 2 := rfl
  simp only [State.branchTarget, sext16, BitVec.toNat_add, BitVec.toNat_signExtend, BitVec.toNat_setWidth,
    BitVec.toInt_eq_msb_cond, two]
  split <;> omega

/-- What a branch does: `pc` goes to its target or past the branch, and nothing else changes (R170). -/
theorem branchOn_eq (f : Flag) (want : Bool) (d : Byte) (s : State) :
    branchOn f want d s = .next (s.setPc (if s.flag f = want then s.branchTarget d else s.pc + 2)) := by
  unfold branchOn
  split <;> rfl

/-- The eight branches with the bit each tests and the value that takes it (R171 to R178). -/
def branches (d : Byte) : List (Instr × Flag × Bool) :=
  [(.bcc d, .C, false), (.bcs d, .C, true), (.beq d, .Z, true), (.bne d, .Z, false), (.bmi d, .N, true),
    (.bpl d, .N, false), (.bvc d, .V, false), (.bvs d, .V, true)]

theorem exec_branch {d : Byte} {i : Instr} {f : Flag} {want : Bool} (h : (i, f, want) ∈ branches d) (s : State) :
    exec i s = branchOn f want d s := by
  simp only [branches, List.mem_cons, Prod.mk.injEq, List.not_mem_nil, or_false] at h
  rcases h with ⟨rfl, rfl, rfl⟩ | ⟨rfl, rfl, rfl⟩ | ⟨rfl, rfl, rfl⟩ | ⟨rfl, rfl, rfl⟩ | ⟨rfl, rfl, rfl⟩ | ⟨rfl, rfl, rfl⟩ |
    ⟨rfl, rfl, rfl⟩ | ⟨rfl, rfl, rfl⟩ <;> rfl

/-! ### The stack -/

/-- The stack addresses are those of page 1 (`20_memory.md` R55). -/
theorem ne_stackAddr_of_outside {a : Addr} (h : a.toNat < 0x0100 ∨ 0x0200 ≤ a.toNat) (sp : Byte) : a ≠ stackAddr sp := by
  rintro rfl
  have := sp.isLt
  rw [stackAddr_toNat] at h
  omega

/-- A stack store leaves every byte outside page 1 alone (R63). -/
theorem exec_stackStorer_read {i : Instr} (stores : i.mnemonic ∈ stackStorers) {s t : State} (h : exec i s = .next t)
    {a : Addr} (outside : ∀ sp, a ≠ stackAddr sp) : t.read a = s.read a := by
  simp only [stackStorers, List.mem_cons, List.not_mem_nil, or_false] at stores
  rcases stores with mn | mn | mn | mn | mn | mn
  · match i, mn, h with
    | .pha, _, rfl => exact write_read_other s _ (outside _)
  · match i, mn, h with
    | .php, _, rfl => exact write_read_other s _ (outside _)
  · match i, mn, h with
    | .pla, _, rfl => exact write_read_other (s.setSp (s.sp + 1)) 0 (outside (s.sp + 1))
  · match i, mn, h with
    | .plp, _, rfl => exact write_read_other (s.setSp (s.sp + 1)) 0 (outside (s.sp + 1))
  · match i, mn, h with
    | .jsr target, _, rfl =>
      rw [setPc_read, pushWord_read, if_neg (outside _), if_neg (outside _)]
  · match i, mn, h with
    | .brk, _, rfl => rw [trapEntry_read, if_neg (outside _), if_neg (outside _), if_neg (outside _)]

end Sys2Proof.Machine
end

section
/-! PROOFS. The obligations about who writes what (`10_state.md`) and the invariant. -/

namespace Sys2Proof.Machine

/-- Settles O13: JMP indirect at 0xFFFF aside every rule answers, and its frame leaves the latches and the record. -/
theorem everyInstructionCompletes : Obligations.EveryInstructionCompletes := by
  intro i s
  split
  · next top =>
    rw [top]
    exact execJmpInd_top s
  · next other =>
    obtain ⟨t, next⟩ := exec_next other s
    have frame := exec_frame next
    exact ⟨t, next, frame.ir, frame.decoded, frame.fault⟩

/-- Settles O10: the rule of the fetched instruction keeps the form of memory, and the latches it keeps are the byte at `pc`
and the decoder's answer for it. -/
theorem stepKeepsInvariant : Obligations.StepKeepsInvariant := by
  rintro s t ⟨wf, -, -⟩ h
  obtain ⟨running, i, -, next⟩ := step_next h
  have frame := exec_frame next
  refine ⟨frame.wf wf, frame.fault.trans running, .inr ?_⟩
  rw [frame.decoded, frame.ir]
  rfl

/-- Settles O11: memory is empty, nothing is recorded or decoded. -/
theorem resetMeetsInvariant : Obligations.ResetMeetsInvariant := ⟨reset_wf, rfl, .inl rfl⟩

/-- Settles O14: the bits outside the frame's list are kept, those in it have the instruction as a writer. -/
theorem flagsChangeOnlyByTheirWriters : Obligations.FlagsChangeOnlyByTheirWriters := by
  intro i s t f h other
  obtain ⟨written, kept, listed⟩ := (exec_frame h).flags
  exact kept f (mt (listed f) other)

/-- Memory that is the same data reads alike. -/
theorem keepsBytes_of_mem {s t : State} (h : t.mem = s.mem) : keepsBytesExcept [] s t :=
  fun a _ => congrArg (Memory.read · a.toNat) h

/-- Settles O16: the frame, with the two shift forms told apart. -/
theorem registersAndMemoryChangeOnlyByTheirWriters : Obligations.RegistersAndMemoryChangeOnlyByTheirWriters := by
  intro i s t h
  have frame := exec_frame h
  exact ⟨frame.acc.resolve_left, fun shift mode => exec_shift_acc shift mode h,
    fun mode => keepsBytes_of_mem (exec_acc_mem mode h), frame.ix.resolve_left, frame.iy.resolve_left,
    frame.sp.resolve_left, fun other => keepsBytes_of_mem (frame.mem.resolve_left other)⟩

/-- Settles O17: the frame's program counter, and the two targets of `branchOn`. -/
theorem programCounterAdvancesByLength : Obligations.ProgramCounterAdvancesByLength := by
  intro i s t h
  refine ⟨(exec_frame h).pc.resolve_left, fun d branch => ?_⟩
  obtain ⟨⟨_, f, want⟩, row, rfl⟩ := List.mem_map.mp (show i ∈ (branches d).map Prod.fst from branch)
  cases ((exec_branch row s).trans (branchOn_eq f want d s)).symm.trans h
  by_cases taken : s.flag f = want
  · rw [if_pos taken]
    exact .inr (branchTarget_toNat d s)
  · rw [if_neg taken]
    exact .inl (pcAdvances_advance rfl 2)

/-- Settles O18: the stack addresses are those of page 1. -/
theorem stackStoresStayInPageOne : Obligations.StackStoresStayInPageOne :=
  fun _ _ _ _ h stores outside => exec_stackStorer_read stores h (ne_stackAddr_of_outside outside)

end Sys2Proof.Machine
end

section
/-! SUPPORT. Control transfer and the stack: what each rule leaves, with the return address and the stack pointer as numbers
(`42_branch_jump.md`, `43_stack.md`, `45_system.md`). -/

namespace Sys2Proof.Machine

/-! ### Sums as numbers -/

theorem addr_add_toNat (a : Addr) (n : Nat) : (a + BitVec.ofNat 16 n).toNat = (a.toNat + n) % 65536 := by
  simp

theorem addr_add_one_toNat (a : Addr) : (a + 1).toNat = (a.toNat + 1) % 65536 := addr_add_toNat a 1

theorem addr_add_two_toNat (a : Addr) : (a + 2).toNat = (a.toNat + 2) % 65536 := addr_add_toNat a 2

theorem sp_add_toNat (p : Byte) (n : Nat) : (p + BitVec.ofNat 8 n).toNat = (p.toNat + n) % 256 := by
  simp

theorem sp_sub_one_toNat (p : Byte) : (p - 1).toNat = (p.toNat + 255) % 256 := aluDec_toNat p

/-! ### Branches -/

theorem branchOn_taken {f : Flag} {want : Bool} {s : State} (d : Byte) (h : s.flag f = want) :
    branchOn f want d s = .next { s with pc := s.branchTarget d } := by
  rw [branchOn_eq, if_pos h]
  rfl

theorem branchOn_passed {f : Flag} {want : Bool} {s : State} (d : Byte) (h : s.flag f = !want) :
    branchOn f want d s = .next { s with pc := s.pc + 2 } := by
  rw [branchOn_eq, if_neg (by simp [h])]
  rfl

/-- A branch's mnemonic names the bit it tests (R171 to R178). -/
theorem exec_of_branchFlag {i : Instr} {f : Flag} (h : branchFlag i.mnemonic = some f) :
    ∃ want d, ∀ s, exec i s = branchOn f want d s :=
  match i, h with
  | .bcc _, rfl | .bcs _, rfl | .beq _, rfl | .bne _, rfl | .bmi _, rfl | .bpl _, rfl | .bvc _, rfl | .bvs _, rfl =>
    ⟨_, _, fun _ => rfl⟩

/-- A branch's opcode has a row of two bytes (R171 to R178). -/
theorem decodeOpcode_branch {op : Byte} (h : op ∈ [(0x90 : Byte), 0xB0, 0xF0, 0xD0, 0x30, 0x10, 0x50, 0x70]) :
    ∃ e, decodeOpcode op = some e ∧ e.length = 2 := by
  simp only [List.mem_cons, List.not_mem_nil, or_false] at h
  rcases h with rfl | rfl | rfl | rfl | rfl | rfl | rfl | rfl <;> exact ⟨_, rfl, rfl⟩

/-! ### JSR and RTS -/

theorem exec_jsr_read (a : Addr) {s t : State} (h : exec (.jsr a) s = .next t) (b : Addr) :
    t.read b = if b = stackAddr (s.sp - 1) then lowByte (s.pc + 2) else if b = stackAddr s.sp then highByte (s.pc + 2)
      else s.read b := by
  cases (exec_jsr a s).symm.trans h
  exact pushWord_read s (s.pc + 2) b

theorem exec_jsr_read_high (a : Addr) {s t : State} (h : exec (.jsr a) s = .next t) :
    t.read (stackAddr s.sp) = highByte (s.pc + 2) := by
  rw [exec_jsr_read a h, if_neg (stackAddr_ne_sub_one s.sp), if_pos rfl]

theorem exec_jsr_read_low (a : Addr) {s t : State} (h : exec (.jsr a) s = .next t) :
    t.read (stackAddr (s.sp - 1)) = lowByte (s.pc + 2) := by
  rw [exec_jsr_read a h, if_pos rfl]

/-- RTS (R183): `pc` from the two bytes above `sp`, plus 1; no byte is written. -/
theorem exec_rts (s : State) :
    exec .rts s = .next
      { s with
        sp := s.sp + 2
        pc := word16 (s.read (stackAddr (s.sp + 2))) (s.read (stackAddr (s.sp + 1))) + 1 } := by
  have two : s.sp + 2 = s.sp + 1 + 1 := by bv_omega
  rw [two]
  rfl

/-! ### PHA, PHP, PLA, PLP -/

/-- One byte pushed and `pc` advanced by 1 (R200, R201). -/
theorem push_advance_next (v : Byte) (s : State) :
    ∃ t, (.next ((s.push v).advance 1) : Result) = .next t ∧ t.read (stackAddr s.sp) = v ∧
      t.sp.toNat = (s.sp.toNat + 255) % 256 ∧ keepsBytesExcept [stackAddr s.sp] s t ∧ pcAdvances 1 s t ∧
      t = { s with sp := t.sp, pc := t.pc, mem := t.mem } :=
  ⟨_, rfl, write_read_same s _ _, sp_sub_one_toNat s.sp,
    fun _ ha => write_read_other s _ (by simpa using ha), pcAdvances_advance rfl 1, rfl⟩

/-- The state after a pull of PLA or PLP: `sp` one higher, the pulled byte cleared (R203). -/
def State.pulled (s : State) : State := (s.setSp (s.sp + 1)).write (stackAddr (s.sp + 1)) 0

theorem exec_pla (s : State) :
    exec .pla s = .next (((s.pulled.setAcc (s.read (stackAddr (s.sp + 1)))).setStat
      (setNZ (s.read (stackAddr (s.sp + 1))) s.stat)).advance 1) := rfl

theorem exec_plp (s : State) :
    exec .plp s = .next ((s.pulled.setStat (s.read (stackAddr (s.sp + 1)))).advance 1) := rfl

theorem pulled_read_same (s : State) : s.pulled.read (stackAddr (s.sp + 1)) = 0 := write_read_same _ _ _

theorem pulled_read_other (s : State) {a : Addr} (h : a ≠ stackAddr (s.sp + 1)) : s.pulled.read a = s.read a :=
  write_read_other (s.setSp (s.sp + 1)) 0 h

/-! ### BRK and RTI -/

theorem trapEntry_read_zero (s : State) :
    (State.trapEntry Config.params s).read (stackAddr s.sp) = highByte (s.pc + 2) := by
  rw [trapEntry_read, if_neg (stackAddr_ne_sub_two s.sp), if_neg (stackAddr_ne_sub_one s.sp), if_pos rfl]

theorem trapEntry_read_one (s : State) :
    (State.trapEntry Config.params s).read (stackAddr (s.sp - 1)) = lowByte (s.pc + 2) := by
  rw [trapEntry_read, if_neg (stackAddr_sub_one_ne_sub_two s.sp), if_pos rfl]

theorem trapEntry_read_two (s : State) :
    (State.trapEntry Config.params s).read (stackAddr (s.sp - 2)) = putFlag .B true s.stat := by
  rw [trapEntry_read, if_pos rfl]

theorem trapEntry_sp (s : State) : (State.trapEntry Config.params s).sp = s.sp - 3 :=
  congrArg State.sp (trapEntry_frame s)

theorem trapEntry_stat (s : State) : (State.trapEntry Config.params s).stat = putFlag .B true s.stat :=
  congrArg State.stat (trapEntry_frame s)

theorem exec_brk (s : State) : exec .brk s = .next (State.trapEntry Config.params s) := rfl

/-- RTI (R242): `stat` and `pc` from the three bytes above `sp`; no byte is written. -/
theorem exec_rti (s : State) :
    exec .rti s = .next
      { s with
        sp := s.sp + 3
        stat := s.read (stackAddr (s.sp + 1))
        pc := word16 (s.read (stackAddr (s.sp + 3))) (s.read (stackAddr (s.sp + 2))) } := by
  have two : s.sp + 2 = s.sp + 1 + 1 := by bv_omega
  have three : s.sp + 3 = s.sp + 1 + 1 + 1 := by bv_omega
  rw [two, three]
  rfl

end Sys2Proof.Machine
end

section
/-! PROOFS. The obligations of `42_branch_jump.md`. -/

namespace Sys2Proof.Machine

/-- Settles O28: each branch is `branchOn` of its bit; at 0xFFFF its two bytes do not fit. -/
theorem branchesGoWhereTheirBitSays : Obligations.BranchesGoWhereTheirBitSays := by
  refine ⟨by decide, by decide, by decide, by decide, by decide, by decide, by decide, by decide, ?target,
    fun i _ _ => runsFromMemory_all i, ?top⟩
  case target =>
    intro s d i f want branch
    refine ⟨_, (exec_branch branch s).trans (branchOn_eq f want d s), rfl, fun _ _ => rfl, ?_⟩
    by_cases taken : s.flag f = want
    · rw [if_pos taken, if_pos taken]
      exact branchTarget_toNat d s
    · rw [if_neg taken, if_neg taken]
      exact congrArg Int.ofNat (addr_add_two_toNat s.pc)
  case top =>
    intro s running top opcode
    obtain ⟨e, entry, two⟩ := decodeOpcode_branch opcode
    obtain ⟨i, -, -, -, length, code⟩ := exists_instr_at entry
    refine step_of_past running ?_ code
    rw [length, two, top]
    decide

/-- Settles O29: `branchOn` reads its one bit of `stat` and writes none. -/
theorem branchDependsOnOneBitOnly : Obligations.BranchDependsOnOneBitOnly := by
  refine ⟨fun i f x s tests same => ?_, fun s d => ?_⟩
  · obtain ⟨want, d, meaning⟩ := exec_of_branchFlag tests
    refine ⟨_, (meaning s).trans (branchOn_eq f want d s), ?_⟩
    rw [meaning, branchOn_eq, show State.flag { s with stat := x } f = s.flag f from same]
    rfl
  · have flag {x : Byte} (h : s.stat = x) (f : Flag) : s.flag f = getFlag f x := congrArg (getFlag f) h
    refine ⟨fun h => ⟨?_, ?_⟩, fun h => ⟨?_, ?_⟩, fun h => ⟨?_, ?_⟩, fun h => ⟨?_, ?_⟩,
      fun h => ⟨?_, ?_, ?_, ?_, ?_, ?_, ?_, ?_⟩⟩
    · exact branchOn_taken d (flag h .C)
    · exact branchOn_passed d (flag h .C)
    · exact branchOn_taken d (flag h .Z)
    · exact branchOn_passed d (flag h .Z)
    · exact branchOn_taken d (flag h .N)
    · exact branchOn_passed d (flag h .N)
    · exact branchOn_taken d (flag h .V)
    · exact branchOn_passed d (flag h .V)
    · exact branchOn_passed d (flag h .C)
    · exact branchOn_passed d (flag h .Z)
    · exact branchOn_passed d (flag h .N)
    · exact branchOn_passed d (flag h .V)
    · exact branchOn_taken d (flag h .C)
    · exact branchOn_taken d (flag h .Z)
    · exact branchOn_taken d (flag h .N)
    · exact branchOn_taken d (flag h .V)

/-- Settles O30: JMP writes `pc` only; its indirect form reads the target low byte first and faults at 0xFFFF. -/
theorem jmpGoesToOperandOrStoredTarget : Obligations.JmpGoesToOperandOrStoredTarget := by
  refine ⟨by decide, fun i _ => runsFromMemory_all i, fun _ _ => rfl, fun a s below => ?_, execJmpInd_top⟩
  exact ⟨_, execJmpInd_next a s below, rfl, fun _ _ => rfl, word16_toNat _ _⟩

/-- Settles O31: the pushed word is `pc + 2`. -/
theorem jsrPushesReturnAddress : Obligations.JsrPushesReturnAddress := by
  refine ⟨by decide, fun i _ => runsFromMemory_all i, fun a s => ?_⟩
  have next := exec_jsr a s
  refine ⟨_, next, rfl, ?sp, ?high, ?low, ?bytes, rfl⟩
  case sp =>
    show (s.sp - 1 - 1).toNat = _
    rw [sp_sub_one_toNat, sp_sub_one_toNat]
    omega
  case high => rw [exec_jsr_read_high a next, highByte_toNat, addr_add_two_toNat]
  case low =>
    rw [exec_jsr_read_low a next, lowByte_toNat, addr_add_two_toNat]
    omega
  case bytes =>
    intro b hb
    simp only [List.mem_cons, List.not_mem_nil, or_false, not_or] at hb
    obtain ⟨notHigh, notLow⟩ := hb
    rw [exec_jsr_read a next, if_neg notLow, if_neg notHigh]

/-- Settles O32: the two bytes above `sp`, plus 1. -/
theorem rtsPullsReturnAddress : Obligations.RtsPullsReturnAddress := by
  refine ⟨by decide, fun s => ⟨_, exec_rts s, ?_, sp_add_toNat s.sp 2, rfl, fun _ _ => rfl⟩⟩
  exact (addr_add_one_toNat _).trans (by rw [word16_toNat])

/-- Settles O33: the two bytes pulled are the two halves of the pushed `pc + 2`. -/
theorem rtsReturnsFromJsr : Obligations.RtsReturnsFromJsr := by
  intro a s t u call sp high low
  have sp : u.sp = s.sp - 1 - 1 := by
    cases (exec_jsr a s).symm.trans call
    exact sp
  have two : u.sp + 2 = s.sp := by bv_omega
  have one : u.sp + 1 = s.sp - 1 := by bv_omega
  rw [exec_jsr_read_high a call] at high
  rw [exec_jsr_read_low a call] at low
  refine ⟨_, exec_rts u, ?_, two⟩
  show (word16 _ _ + 1).toNat = _
  rw [two, one, high, low, word16_high_low, addr_add_one_toNat, addr_add_two_toNat]
  omega

end Sys2Proof.Machine
end

section
/-! PROOFS. The obligations of `43_stack.md`. -/

namespace Sys2Proof.Machine

/-- Settles O34: each is one push and the advance by 1. -/
theorem phaPhpPushOneByte : Obligations.PhaPhpPushOneByte :=
  ⟨by decide, by decide, fun s => ⟨push_advance_next s.acc s, push_advance_next (putFlag .B true s.stat) s⟩⟩

/-- Settles O35: the pulled byte goes to its register, and the pull clears it. -/
theorem plaPlpPullAndClear : Obligations.PlaPlpPullAndClear := by
  refine ⟨by decide, by decide, fun s => ?_⟩
  have others : keepsBytesExcept [stackAddr (s.sp + 1)] s s.pulled :=
    fun a ha => pulled_read_other s (by simpa using ha)
  exact ⟨⟨_, exec_pla s, rfl, zeroNegative_of_stat rfl, keepsFlags_of_stat rfl, sp_add_toNat s.sp 1,
      pulled_read_same s, others, pcAdvances_advance rfl 1, rfl⟩,
    ⟨_, exec_plp s, rfl, sp_add_toNat s.sp 1, pulled_read_same s, others, pcAdvances_advance rfl 1, rfl⟩⟩

/-- Settles O36: the pull takes back the byte and the stack pointer of the push. -/
theorem pullUndoesPush : Obligations.PullUndoesPush := by
  intro s
  have back : s.sp - 1 + 1 = s.sp := by bv_omega
  have pushed (v : Byte) : (s.push v).read (stackAddr (s.sp - 1 + 1)) = v := by
    rw [back]
    exact write_read_same s _ v
  refine ⟨⟨_, _, rfl, exec_pla _, pushed s.acc, back, ?nz, ?cleared, ?others⟩, ⟨_, _, rfl, exec_plp _, back, ?set, ?kept⟩⟩
  case nz => exact zeroNegative_of_stat (congrArg (setNZ · s.stat) (pushed s.acc))
  case cleared => exact back ▸ pulled_read_same ((s.push s.acc).advance 1)
  case others =>
    intro a ha
    have other : a ≠ stackAddr s.sp := by simpa using ha
    refine (pulled_read_other ((s.push s.acc).advance 1) (back.symm ▸ other)).trans ?_
    exact write_read_other s s.acc other
  case set => exact (congrArg (getFlag .B) (pushed _)).trans (getFlag_putFlag_same .B true s.stat)
  case kept => exact keepsFlags_putFlag (pushed (putFlag .B true s.stat))

end Sys2Proof.Machine
end

section
/-! PROOFS. The obligations of `45_system.md`, and the return from the trap (`60_exceptions.md` R312). -/

namespace Sys2Proof.Machine

/-- Settles O41: what taking the trap leaves, field by field. -/
theorem brkTakesTheTrap : Obligations.BrkTakesTheTrap := by
  refine ⟨by decide, fun s => ⟨_, exec_brk s, ?set, ?kept, ?pc, ?sp, ?high, ?low, ?stat, ?others, ?frame⟩⟩
  case set => exact (congrArg (getFlag .B) (trapEntry_stat s)).trans (getFlag_putFlag_same .B true s.stat)
  case kept => exact keepsFlags_putFlag (trapEntry_stat s)
  case pc => rw [trapEntry_pc, word16_toNat]
  case sp =>
    rw [trapEntry_sp]
    bv_omega
  case high => rw [trapEntry_read_zero, highByte_toNat, addr_add_two_toNat]
  case low =>
    rw [trapEntry_read_one, lowByte_toNat, addr_add_two_toNat]
    omega
  case stat => rw [trapEntry_read_two, trapEntry_stat]
  case others =>
    intro a ha
    simp only [List.mem_cons, List.not_mem_nil, or_false, not_or] at ha
    obtain ⟨notHigh, notLow, notStat⟩ := ha
    rw [trapEntry_read, if_neg notStat, if_neg notLow, if_neg notHigh]
  case frame =>
    rw [trapEntry_sp, trapEntry_stat]
    exact trapEntry_frame s

/-- Settles O43: `stat` and `pc` from the three bytes above `sp`. -/
theorem rtiReturnsFromTrap : Obligations.RtiReturnsFromTrap :=
  ⟨by decide, fun s => ⟨_, exec_rti s, rfl, word16_toNat _ _, sp_add_toNat s.sp 3, rfl, fun _ _ => rfl⟩⟩

/-- Settles O44: RTI pulls the three bytes BRK pushed. -/
theorem rtiResumesAfterBrk : Obligations.RtiResumesAfterBrk := by
  intro s t u trap sp same
  cases (exec_brk s).symm.trans trap
  rw [trapEntry_sp] at sp
  have one : u.sp + 1 = s.sp - 2 := by bv_omega
  have two : u.sp + 2 = s.sp - 1 := by bv_omega
  have three : u.sp + 3 = s.sp := by bv_omega
  have stat : u.read (stackAddr (s.sp - 2)) = putFlag .B true s.stat :=
    (same 2 (by decide)).trans (trapEntry_read_two s)
  have low : u.read (stackAddr (s.sp - 1)) = lowByte (s.pc + 2) := (same 1 (by decide)).trans (trapEntry_read_one s)
  have high : u.read (stackAddr s.sp) = highByte (s.pc + 2) := by
    simpa using (same 0 (by decide)).trans (by simpa using trapEntry_read_zero s)
  have next := exec_rti u
  rw [one, two, three, stat, low, high, word16_high_low] at next
  exact ⟨_, next, addr_add_two_toNat s.pc, rfl, (trapEntry_stat s).symm, getFlag_putFlag_same .B true s.stat⟩

/-- The state of a machine in unloaded memory: BRK stands at `pc` = 0x0000, and the vector leads there (R240). -/
def inUnloadedMemory (s : State) : Prop :=
  s.fault = none ∧ s.pc = 0x0000 ∧ s.read 0x0000 = 0x00 ∧ s.read 0xFFFE = 0x00 ∧ s.read 0xFFFF = 0x00

/-- A step in unloaded memory takes the trap and stays there: no byte it needs is in the stack's page. -/
theorem step_inUnloadedMemory {s : State} (h : inUnloadedMemory s) :
    ∃ t, step s = .next t ∧ inUnloadedMemory t ∧ t.sp = s.sp - 3 ∧ t.flag .B = true ∧ t.ir = 0x00 := by
  obtain ⟨running, pc, byte, low, high⟩ := h
  have code : standsAt .brk s := by
    intro k hk
    cases Nat.lt_one_iff.mp hk
    rw [pc]
    exact byte
  have next := (step_of_fits running (by rw [pc]; decide) code).trans (exec_brk s.latch)
  have frame := exec_frame (exec_brk s.latch)
  have kept {a : Addr} (outside : a.toNat < 0x0100 ∨ 0x0200 ≤ a.toNat) :
      (State.trapEntry Config.params s.latch).read a = s.read a :=
    exec_stackStorer_read (by decide : Instr.brk.mnemonic ∈ stackStorers) (exec_brk s.latch)
      (ne_stackAddr_of_outside outside)
  refine ⟨_, next, ⟨frame.fault.trans running, ?pc, (kept (by decide)).trans byte, (kept (by decide)).trans low,
    (kept (by decide)).trans high⟩, trapEntry_sp s.latch, ?set, ?ir⟩
  case pc => rw [trapEntry_pc, latch_read, latch_read, low, high]; rfl
  case set => exact (congrArg (getFlag .B) (trapEntry_stat s.latch)).trans (getFlag_putFlag_same .B true s.stat)
  case ir => rw [frame.ir, latch_ir, pc, byte]

theorem run_inUnloadedMemory (k : Nat) {s : State} (h : inUnloadedMemory s) :
    ∃ t, Sys2Proof.core.run k s = .next t ∧ inUnloadedMemory t ∧
      (t.sp.toNat : Int) = ((s.sp.toNat : Int) - 3 * k) % 256 ∧ (0 < k → t.flag .B = true ∧ t.ir = 0x00) := by
  induction k generalizing s with
  | zero =>
    have := s.sp.isLt
    exact ⟨s, run_zero s, h, by omega, nofun⟩
  | succ k ih =>
    obtain ⟨u, first, still, three, set, ir⟩ := step_inUnloadedMemory h
    obtain ⟨t, rest, stays, sp, later⟩ := ih still
    refine ⟨t, (run_succ k s t).mpr ⟨u, first, rest⟩, stays, ?_, fun _ => ?_⟩
    · rw [sp, three]
      bv_omega
    · obtain rfl | more := Nat.eq_zero_or_pos k
      · cases (run_zero u).symm.trans rest
        exact ⟨set, ir⟩
      · exact later more

/-- Settles O59: every step stays in unloaded memory. -/
theorem unloadedMemoryRunsBrkForEver : Obligations.UnloadedMemoryRunsBrkForEver := by
  intro k s running pc byte low high
  obtain ⟨t, run, ⟨running', pc', -⟩, sp, later⟩ := run_inUnloadedMemory k ⟨running, pc, byte, low, high⟩
  exact ⟨t, run, pc', running', sp, later⟩

end Sys2Proof.Machine
end

section
/-! SUPPORT. Loads, stores, logic and BIT: the four shared effects, said once, and the forms they are the rule of
(`46_load_store_logic.md`). -/

namespace Sys2Proof.Machine

/-! ### The shared effects -/

/-- What a load does on its register, Z, N and `pc`, and that it does nothing else (R250 to R252). -/
theorem loadWith_next (put : State → Byte → State) (o : Operand) (s : State) (pc : ∀ v, (put s v).pc = s.pc)
    (mem : ∀ v, (put s v).mem = s.mem) :
    ∃ t, loadWith put o s = .next t ∧ zeroNegative (o.value s).toNat t ∧ keepsFlags [.Z, .N] s t ∧
      pcAdvances o.length s t ∧ keepsBytesExcept [] s t ∧ t = ((put s (o.value s)).setStat t.stat).setPc t.pc :=
  ⟨_, rfl, zeroNegative_of_stat rfl, keepsFlags_of_stat rfl, pcAdvances_advance (pc _) _, keepsBytes_of_mem (mem _), rfl⟩

/-- What a store does on the byte at the effective address and `pc`, and that it does nothing else (R253 to R255). -/
theorem storeWith_next (v : Byte) (q : MemOperand) (s : State) :
    ∃ t, storeWith v q s = .next t ∧ t.read (q.ea s) = v ∧ keepsBytesExcept [q.ea s] s t ∧ pcAdvances q.length s t ∧
      t = { s with mem := t.mem, pc := t.pc } :=
  ⟨_, rfl, write_read_same s _ v, fun _ ha => write_read_other s v (by simpa using ha), pcAdvances_advance rfl _, rfl⟩

/-- What AND, ORA and EOR do on `acc`, Z, N and `pc`, and that they do nothing else (R256 to R258). -/
theorem logicWith_next (op : Byte → Byte → Byte) (o : Operand) (s : State) :
    ∃ t, logicWith op o s = .next t ∧ t.acc = op s.acc (o.value s) ∧ zeroNegative t.acc.toNat t ∧
      keepsFlags [.Z, .N] s t ∧ pcAdvances o.length s t ∧ t = { s with acc := t.acc, stat := t.stat, pc := t.pc } ∧
      keepsBytesExcept [] s t :=
  ⟨_, rfl, rfl, zeroNegative_of_stat rfl, keepsFlags_of_stat rfl, pcAdvances_advance rfl _, rfl, fun _ _ => rfl⟩

/-- What BIT does on Z, N, V and `pc`, and that it does nothing else (R259). -/
theorem bitWith_next (o : Operand) (s : State) :
    ∃ t, bitWith o s = .next t ∧ t.flag .Z = (s.acc &&& o.value s == 0) ∧ t.flag .N = (o.value s).getLsbD 7 ∧
      t.flag .V = (o.value s).getLsbD 6 ∧ keepsFlags [.Z, .N, .V] s t ∧ pcAdvances o.length s t ∧
      t = { s with stat := t.stat, pc := t.pc } ∧ keepsBytesExcept [] s t := by
  refine ⟨_, rfl, ?_, ?_, ?_, keepsFlags_statBit rfl, pcAdvances_advance rfl _, rfl, fun _ _ => rfl⟩
  all_goals simp [getFlag_statBit]

/-! ### Their forms -/

/-- The register a load writes (R250 to R252). -/
def loadedRegister : Mnemonic → Option (State → Byte → State)
  | .LDA => some State.setAcc
  | .LDX => some State.setIx
  | .LDY => some State.setIy
  | _ => none

/-- A load's register write moves neither `pc` nor memory. -/
theorem loadedRegister_of_mem {m : Mnemonic} (h : m ∈ [Mnemonic.LDA, .LDX, .LDY]) :
    ∃ put, loadedRegister m = some put ∧ (∀ s v, (put s v).pc = s.pc) ∧ ∀ s v, (put s v).mem = s.mem := by
  simp only [List.mem_cons, List.not_mem_nil, or_false] at h
  rcases h with rfl | rfl | rfl <;> exact ⟨_, rfl, fun _ _ => rfl, fun _ _ => rfl⟩

/-- Every form of LDA, LDX and LDY is the shared effect on its register, over the operand of its format (R250 to R252). -/
theorem exec_load (i : Instr) {put : State → Byte → State} (h : loadedRegister i.mnemonic = some put) :
    ∃ o, operandOf i = some o ∧ ∀ s, exec i s = loadWith put o s :=
  match i, h with
  | .ldaIzx _, rfl | .ldaZp _, rfl | .ldaImm _, rfl | .ldaIzy _, rfl | .ldaZpx _, rfl | .ldxImm _, rfl | .ldxZp _, rfl
  | .ldxZpy _, rfl | .ldyImm _, rfl | .ldyZp _, rfl | .ldyZpx _, rfl => ⟨_, rfl, fun _ => rfl⟩
  | .ldaAbs a, rfl | .ldxAbs a, rfl | .ldyAbs a, rfl => ⟨_, formatOperand_abs a, fun _ => rfl⟩
  | .ldaAby a, rfl | .ldxAby a, rfl => ⟨_, formatOperand_aby a, fun _ => rfl⟩
  | .ldaAbx a, rfl | .ldyAbx a, rfl => ⟨_, formatOperand_abx a, fun _ => rfl⟩

/-- Every form of STA, STX and STY stores its register at the effective address of its format (R253 to R255). -/
theorem exec_store (i : Instr) {s : State} {r : Byte} (h : storedRegister i.mnemonic s = some r) :
    ∃ q, operandOf i = some (.mem q) ∧ exec i s = storeWith r q s :=
  match i, h with
  | .staIzx _, rfl | .staZp _, rfl | .staIzy _, rfl | .staZpx _, rfl | .stxZp _, rfl | .stxZpy _, rfl | .styZp _, rfl
  | .styZpx _, rfl => ⟨_, rfl, rfl⟩
  | .staAbs a, rfl | .stxAbs a, rfl | .styAbs a, rfl => ⟨_, formatOperand_abs a, rfl⟩
  | .staAby a, rfl => ⟨_, formatOperand_aby a, rfl⟩
  | .staAbx a, rfl => ⟨_, formatOperand_abx a, rfl⟩

/-- The operation of AND, ORA and EOR (R256 to R258). -/
def logicOp : Mnemonic → Option (Byte → Byte → Byte)
  | .AND => some (· &&& ·)
  | .ORA => some (· ||| ·)
  | .EOR => some (· ^^^ ·)
  | _ => none

theorem logicOp_of_mem {m : Mnemonic} (h : m ∈ [Mnemonic.AND, .ORA, .EOR]) : ∃ op, logicOp m = some op := by
  simp only [List.mem_cons, List.not_mem_nil, or_false] at h
  rcases h with rfl | rfl | rfl <;> exact ⟨_, rfl⟩

/-- Every form of AND, ORA and EOR is its mnemonic's operation on the operand of its format (R256 to R258). -/
theorem exec_logic (i : Instr) {op : Byte → Byte → Byte} (h : logicOp i.mnemonic = some op) :
    ∃ o, operandOf i = some o ∧ ∀ s, exec i s = logicWith op o s :=
  match i, h with
  | .andIzx _, rfl | .andZp _, rfl | .andImm _, rfl | .andIzy _, rfl | .andZpx _, rfl | .oraIzx _, rfl | .oraZp _, rfl
  | .oraImm _, rfl | .oraIzy _, rfl | .oraZpx _, rfl | .eorIzx _, rfl | .eorZp _, rfl | .eorImm _, rfl | .eorIzy _, rfl
  | .eorZpx _, rfl => ⟨_, rfl, fun _ => rfl⟩
  | .andAbs a, rfl | .oraAbs a, rfl | .eorAbs a, rfl => ⟨_, formatOperand_abs a, fun _ => rfl⟩
  | .andAby a, rfl | .oraAby a, rfl | .eorAby a, rfl => ⟨_, formatOperand_aby a, fun _ => rfl⟩
  | .andAbx a, rfl | .oraAbx a, rfl | .eorAbx a, rfl => ⟨_, formatOperand_abx a, fun _ => rfl⟩

/-- Both forms of BIT are the shared effect over the operand of their format (R259). -/
theorem exec_bit (i : Instr) (h : i.mnemonic = .BIT) : ∃ o, operandOf i = some o ∧ ∀ s, exec i s = bitWith o s :=
  match i, h with
  | .bitZp _, _ => ⟨_, rfl, fun _ => rfl⟩
  | .bitAbs a, _ => ⟨_, formatOperand_abs a, fun _ => rfl⟩

/-- Two bytes have no bit in common exactly when their AND is 0 (R259). -/
theorem and_eq_zero_iff_bits (a m : Byte) :
    a &&& m = 0 ↔ ∀ k, k < 8 → ¬ (a.getLsbD k = true ∧ m.getLsbD k = true) := by
  constructor
  · intro zero k _ both
    have bit := congrArg (BitVec.getLsbD · k) zero
    simp [both] at bit
  · intro apart
    apply BitVec.eq_of_getLsbD_eq
    intro k hk
    simpa using apart k hk

end Sys2Proof.Machine
end

section
/-! PROOFS. The obligations of `46_load_store_logic.md`. -/

namespace Sys2Proof.Machine

/-- Settles O45: each form is `loadWith` on its register. -/
theorem loadsReadTheOperand : Obligations.LoadsReadTheOperand := by
  refine ⟨by decide, by decide, by decide, fun i _ => runsFromMemory_all i, fun i s h => ?_⟩
  obtain ⟨put, isPut, putPc, putMem⟩ := loadedRegister_of_mem h
  obtain ⟨o, operand, meaning⟩ := exec_load i isPut
  obtain ⟨t, next, nz, kept, pc, bytes, frame⟩ := loadWith_next put o s (putPc s) (putMem s)
  have written {m : Mnemonic} {put' : State → Byte → State} (load : i.mnemonic = m) (h : loadedRegister m = some put') :
      t = ((put' s (o.value s)).setStat t.stat).setPc t.pc := by
    cases isPut.symm.trans ((congrArg loadedRegister load).trans h)
    exact frame
  exact ⟨o, t, operand, (meaning s).trans next, nz, kept, operandOf_length operand ▸ pc, bytes,
    fun lda => written lda rfl, fun ldx => written ldx rfl, fun ldy => written ldy rfl⟩

/-- Settles O46: each form is `storeWith` of its register. -/
theorem storesWriteOneByte : Obligations.StoresWriteOneByte := by
  refine ⟨by decide, by decide, by decide, fun i _ => runsFromMemory_all i, fun i r s h => ?_⟩
  obtain ⟨q, operand, meaning⟩ := exec_store i h
  obtain ⟨t, next, stored, bytes, pc, frame⟩ := storeWith_next r q s
  exact ⟨q, t, operand, meaning.trans next, stored, bytes, operandOf_length operand ▸ pc, frame⟩

/-- Settles O47: each form is `logicWith` of its operation, which works bit by bit. -/
theorem logicWorksBitByBit : Obligations.LogicWorksBitByBit := by
  refine ⟨by decide, by decide, by decide, fun i _ => runsFromMemory_all i, fun i s h => ?_⟩
  obtain ⟨op, isOp⟩ := logicOp_of_mem h
  obtain ⟨o, operand, meaning⟩ := exec_logic i isOp
  obtain ⟨t, next, acc, nz, kept, pc, frame, bytes⟩ := logicWith_next op o s
  have result {m : Mnemonic} {op' : Byte → Byte → Byte} (logic : i.mnemonic = m) (h : logicOp m = some op') :
      t.acc = op' s.acc (o.value s) := by
    cases isOp.symm.trans ((congrArg logicOp logic).trans h)
    exact acc
  refine ⟨o, t, operand, (meaning s).trans next, fun k _ => ⟨fun and => ?_, fun or => ?_, fun xor => ?_⟩, nz, kept,
    operandOf_length operand ▸ pc, frame, bytes⟩
  · rw [result and rfl, BitVec.getLsbD_and]
  · rw [result or rfl, BitVec.getLsbD_or]
  · rw [result xor rfl, BitVec.getLsbD_xor]

/-- Settles O48: both forms are `bitWith`. -/
theorem bitTestsTheOperand : Obligations.BitTestsTheOperand := by
  refine ⟨by decide, fun i _ => runsFromMemory_all i, fun i s h => ?_⟩
  obtain ⟨o, operand, meaning⟩ := exec_bit i h
  obtain ⟨t, next, zero, negative, overflow, kept, pc, frame, bytes⟩ := bitWith_next o s
  refine ⟨o, t, operand, (meaning s).trans next, ?_, negative, overflow, kept, operandOf_length operand ▸ pc, frame, bytes⟩
  rw [zero, beq_iff_eq, and_eq_zero_iff_bits]

end Sys2Proof.Machine
end

section
/-! SUPPORT. Subtraction with borrow as addition of the complement, overflow as the signed range, and the rotation of `C:v`
done `n` times (`40_arithmetic_compare.md` R131, R135, R136, `41_shift_rotate.md` R152). -/

namespace Sys2Proof.Machine

/-! ### The subtracter -/

/-- Every form of SBC is the shared effect with the subtracter, over the operand of its format (R131). -/
theorem exec_sbc (i : Instr) (h : i.mnemonic = .SBC) :
    ∃ o, operandOf i = some o ∧ ∀ s, exec i s = addSub aluSbc o s :=
  match i, h with
  | .sbcIzx _, _ | .sbcZp _, _ | .sbcImm _, _ | .sbcIzy _, _ | .sbcZpx _, _ => ⟨_, rfl, fun _ => rfl⟩
  | .sbcAbs a, _ => ⟨_, formatOperand_abs a, fun _ => rfl⟩
  | .sbcAby a, _ => ⟨_, formatOperand_aby a, fun _ => rfl⟩
  | .sbcAbx a, _ => ⟨_, formatOperand_abx a, fun _ => rfl⟩

/-- The subtracter's result as a number: the low byte of the difference with borrow (R131). -/
theorem aluSbc_result_toNat (a m : Byte) (c : Bool) :
    ((aluSbc a m c).result.toNat : Int) = ((a.toNat : Int) - m.toNat - (1 - c.toNat)) % 256 := by
  simp only [aluSbc, BitVec.toNat_ofInt]
  omega

/-- The subtracter's overflow by the sign comparison (R131). -/
theorem aluSbc_overflow (a m : Byte) (c : Bool) :
    (aluSbc a m c).overflow = decide (a.msb ≠ m.msb ∧ a.msb ≠ (aluSbc a m c).result.msb) := by
  rw [Bool.eq_iff_iff, decide_eq_true_iff]
  simp only [aluSbc, Bool.and_eq_true, bne_iff_ne]

theorem xor_ones_eq_not (m : Byte) : m ^^^ 0xFF = ~~~m := (BitVec.xor_allOnes : m ^^^ BitVec.allOnes 8 = ~~~m)

theorem aluAdc_not_result (a m : Byte) (c : Bool) : (aluAdc a (~~~m) c).result = (aluSbc a m c).result := by
  apply BitVec.eq_of_toNat_eq
  have := m.isLt
  have difference := aluSbc_result_toNat a m c
  rw [aluAdc_result_toNat, BitVec.toNat_not]
  omega

theorem aluAdc_not_carry (a m : Byte) (c : Bool) : (aluAdc a (~~~m) c).carry = (aluSbc a m c).carry := by
  have := m.isLt
  simp only [aluAdc, aluSbc, BitVec.toNat_not, decide_eq_decide]
  omega

theorem aluAdc_not_overflow (a m : Byte) (c : Bool) : (aluAdc a (~~~m) c).overflow = (aluSbc a m c).overflow := by
  rw [aluAdc_overflow, aluSbc_overflow, aluAdc_not_result, BitVec.msb_not]
  cases a.msb <;> cases m.msb <;> cases (aluSbc a m c).result.msb <;> decide

theorem aluOut_ext {x y : AluOut} (result : x.result = y.result) (carry : x.carry = y.carry)
    (overflow : x.overflow = y.overflow) : x = y := by
  cases x
  cases y
  cases result
  cases carry
  cases overflow
  rfl

/-- Subtracting is adding the complement, in result, carry and overflow (R131). -/
theorem aluAdc_complement (a m : Byte) (c : Bool) : aluAdc a (m ^^^ 0xFF) c = aluSbc a m c := by
  rw [xor_ones_eq_not]
  exact aluOut_ext (aluAdc_not_result a m c) (aluAdc_not_carry a m c) (aluAdc_not_overflow a m c)

/-- Two ALU operations with one answer leave one state, but for where `pc` goes. -/
theorem addSub_congr {alu alu' : Byte → Byte → Bool → AluOut} {o o' : Operand} {s t : State}
    (same : alu' s.acc (o'.value s) (s.flag .C) = alu s.acc (o.value s) (s.flag .C)) (h : addSub alu o s = .next t) :
    addSub alu' o' s = .next { t with pc := s.pc + BitVec.ofNat 16 o'.length } := by
  cases h
  unfold addSub
  rw [same]
  rfl

/-! ### Overflow -/

/-- The adder's V says that the signed sum is out of range (R135). -/
theorem aluAdc_overflow_signed (a m : Byte) (c : Bool) :
    (aluAdc a m c).overflow = decide (a.toInt + m.toInt + c.toNat < -128 ∨ 127 < a.toInt + m.toInt + c.toNat) := by
  have := a.isLt
  have := m.isLt
  have := c.toNat_le
  rw [aluAdc_overflow, decide_eq_decide, BitVec.toInt_eq_toNat_cond, BitVec.toInt_eq_toNat_cond]
  simp only [BitVec.msb_eq_decide, aluAdc_result_toNat, ne_eq, decide_eq_decide]
  split <;> split <;> omega

/-- The subtracter's V says that the signed difference is out of range (R135). -/
theorem aluSbc_overflow_signed (a m : Byte) (c : Bool) :
    (aluSbc a m c).overflow =
      decide (a.toInt - m.toInt - (1 - c.toNat) < -128 ∨ 127 < a.toInt - m.toInt - (1 - c.toNat)) := by
  have := m.isLt
  have complement : (~~~m).toInt = -m.toInt - 1 := by
    rw [BitVec.toInt_eq_toNat_cond, BitVec.toInt_eq_toNat_cond, BitVec.toNat_not]
    split <;> split <;> omega
  rw [← aluAdc_not_overflow, aluAdc_overflow_signed, complement, decide_eq_decide]
  omega

theorem and_sign_ne_zero_iff (x : Byte) : x &&& 0x80 ≠ 0 ↔ x.msb = true := by
  have sign : x &&& 0x80 = if x.getLsbD 7 then BitVec.twoPow 8 7 else 0 := BitVec.and_twoPow x 7
  rw [sign, BitVec.msb_eq_getLsbD_last]
  cases x.getLsbD 7 <;> decide

/-- The adder's V by R130's bit formula. -/
theorem aluAdc_overflow_bits (a m : Byte) (c : Bool) :
    (aluAdc a m c).overflow =
      decide ((a ^^^ (aluAdc a m c).result) &&& (m ^^^ (aluAdc a m c).result) &&& 0x80 ≠ 0) := by
  rw [aluAdc_overflow, decide_eq_decide, and_sign_ne_zero_iff, BitVec.msb_and, BitVec.msb_xor, BitVec.msb_xor]
  cases a.msb <;> cases m.msb <;> cases (aluAdc a m c).result.msb <;> decide

/-! ### The inverse law -/

/-- What an ADC and an SBC with borrow `1 - c'` leave of `acc` (R136). -/
theorem aluSbc_aluAdc_result_iff (a m : Byte) (c c' : Bool) :
    (aluSbc (aluAdc a m c).result m c').result = a ↔ c' = !c := by
  have := a.isLt
  have := m.isLt
  have := c.toNat_le
  have := c'.toNat_le
  have sum := aluAdc_result_toNat a m c
  have difference := aluSbc_result_toNat (aluAdc a m c).result m c'
  have complement : c' = !c ↔ c'.toNat + c.toNat = 1 := by cases c <;> cases c' <;> decide
  rw [← BitVec.toNat_inj, complement]
  omega

/-! ### `C:v` turned -/

/-- The nine bits `C:v`: those of `acc`, and C as bit 8 (`41_shift_rotate.md` R152). -/
def State.nineBit (s : State) (k : Nat) : Bool := if k = 8 then s.flag .C else s.acc.getLsbD k

/-- The nine bits of `t` are those of `s`, turned up by `n` places. -/
def turnedUp (n : Nat) (s t : State) : Prop := ∀ k, k < 9 → t.nineBit ((k + n) % 9) = s.nineBit k

theorem turnedUp_zero (s : State) : turnedUp 0 s s := fun k hk => by rw [Nat.add_zero, Nat.mod_eq_of_lt hk]

theorem turnedUp_trans {m n : Nat} {s t u : State} (first : turnedUp m s t) (second : turnedUp n t u) :
    turnedUp (m + n) s u := by
  intro k hk
  rw [← first k hk, ← second _ (Nat.mod_lt _ (by decide)), Nat.mod_add_mod, Nat.add_assoc]

/-- Nine places up is the whole way round. -/
theorem eq_of_turnedUp_nine {s t : State} (h : turnedUp 9 s t) : t.acc = s.acc ∧ t.flag .C = s.flag .C := by
  have same (k : Nat) (hk : k < 9) : t.nineBit k = s.nineBit k := by
    rw [← h k hk, Nat.add_mod_right, Nat.mod_eq_of_lt hk]
  refine ⟨BitVec.eq_of_getLsbD_eq fun k hk => ?_, same 8 (by decide)⟩
  have bit := same k (Nat.lt_succ_of_lt hk)
  rwa [State.nineBit, State.nineBit, if_neg (Nat.ne_of_lt hk), if_neg (Nat.ne_of_lt hk)] at bit

/-- The nine bits after a rotate of `acc`: the ALU's result and its carry. -/
theorem shiftAcc_nineBit (op : Byte → Bool → AluOut) (s : State) :
    ∃ t, shiftAcc op s = .next t ∧ ∀ k, t.nineBit k =
      if k = 8 then (op s.acc (s.flag .C)).carry else (op s.acc (s.flag .C)).result.getLsbD k := by
  obtain ⟨t, next, ⟨frame, -⟩, carry, -⟩ := shiftAcc_next op s
  have acc : t.acc = (op s.acc (s.flag .C)).result := congrArg State.acc frame
  exact ⟨t, next, fun k => by rw [State.nineBit, acc, carry]⟩

/-- ROL turns the nine bits up by one place (R152). -/
theorem exec_rolAcc_turnedUp (s : State) : ∃ t, exec .rolAcc s = .next t ∧ turnedUp 1 s t := by
  obtain ⟨t, next, bits⟩ := shiftAcc_nineBit aluRol s
  refine ⟨t, next, fun k hk => ?_⟩
  rw [bits, State.nineBit]
  obtain low | rfl | rfl : k < 7 ∨ k = 7 ∨ k = 8 := by omega
  · rw [Nat.mod_eq_of_lt (Nat.succ_lt_succ (Nat.lt_succ_of_lt low)), if_neg (by omega), if_neg (by omega)]
    exact aluRol_bit_succ _ _ low
  · rfl
  · exact aluRol_bit_zero _ _

/-- ROR turns them down by one place: up from its result to its operand (R153). -/
theorem exec_rorAcc_turnedUp (s : State) : ∃ t, exec .rorAcc s = .next t ∧ turnedUp 1 t s := by
  obtain ⟨t, next, bits⟩ := shiftAcc_nineBit aluRor s
  refine ⟨t, next, fun k hk => ?_⟩
  rw [bits, State.nineBit]
  obtain low | rfl | rfl : k < 7 ∨ k = 7 ∨ k = 8 := by omega
  · rw [Nat.mod_eq_of_lt (Nat.succ_lt_succ (Nat.lt_succ_of_lt low)), if_neg (by omega), if_neg (by omega)]
    exact (aluRor_bit_lower _ _ low).symm
  · exact (aluRor_bit_seven _ _).symm
  · rfl

/-- A relation that one run of `i` lengthens by one holds after any number of runs. -/
theorem execTimes_induction {i : Instr} (R : Nat → State → State → Prop) (zero : ∀ s, R 0 s s)
    (succ : ∀ s, ∃ t, exec i s = .next t ∧ ∀ n u, R n t u → R (n + 1) s u) (n : Nat) (s : State) :
    ∃ t, execTimes i n s = .next t ∧ R n s t := by
  induction n generalizing s with
  | zero => exact ⟨s, rfl, zero s⟩
  | succ n ih =>
    obtain ⟨t, next, lengthens⟩ := succ s
    obtain ⟨u, rest, related⟩ := ih t
    refine ⟨u, ?_, lengthens n u related⟩
    simp only [execTimes, next]
    exact rest

theorem execTimes_rolAcc (n : Nat) (s : State) : ∃ t, execTimes .rolAcc n s = .next t ∧ turnedUp n s t := by
  refine execTimes_induction turnedUp turnedUp_zero (fun s => ?_) n s
  obtain ⟨t, next, turned⟩ := exec_rolAcc_turnedUp s
  exact ⟨t, next, fun n u rest => Nat.add_comm 1 n ▸ turnedUp_trans turned rest⟩

theorem execTimes_rorAcc (n : Nat) (s : State) : ∃ t, execTimes .rorAcc n s = .next t ∧ turnedUp n t s := by
  refine execTimes_induction (fun n s t => turnedUp n t s) turnedUp_zero (fun s => ?_) n s
  obtain ⟨t, next, turned⟩ := exec_rorAcc_turnedUp s
  exact ⟨t, next, fun n u rest => turnedUp_trans rest turned⟩

end Sys2Proof.Machine
end

section
/-! PROOFS. The remaining obligations of `40_arithmetic_compare.md` and `41_shift_rotate.md`. -/

namespace Sys2Proof.Machine

/-- Settles O21: each form is `addSub` with the subtracter, which is the adder on the complement. -/
theorem sbcSubtractsWithBorrow : Obligations.SbcSubtractsWithBorrow := by
  refine ⟨by decide, fun i _ => runsFromMemory_all i, fun i s h => ?_⟩
  obtain ⟨o, operand, meaning⟩ := exec_sbc i h
  obtain ⟨t, next, acc, carry, overflow, nz, kept, pc, frame, bytes⟩ := addSub_next aluSbc o s
  rw [← acc] at nz
  refine ⟨o, t, operand, (meaning s).trans next, ?_, carry, ?_, nz, ?_, kept, operandOf_length operand ▸ pc, frame, bytes⟩
  · rw [acc, aluSbc_result_toNat]
  · rw [overflow, aluSbc_overflow, acc]
  · exact addSub_congr (aluAdc_complement _ _ _) next

/-- Settles O22: the overflow bit is the ALU's, and the ALU's is the signed range. -/
theorem overflowMeansSignedResultOutOfRange : Obligations.OverflowMeansSignedResultOutOfRange := by
  intro i o s t operand h
  refine ⟨fun adc => ?_, fun sbc => ?_⟩
  · obtain ⟨o', operand', meaning⟩ := exec_adc i adc
    cases operand.symm.trans operand'
    obtain ⟨t', next, acc, -, overflow, -⟩ := addSub_next aluAdc o s
    cases ((meaning s).trans next).symm.trans h
    rw [overflow, acc]
    exact ⟨aluAdc_overflow_signed _ _ _, aluAdc_overflow_bits _ _ _⟩
  · obtain ⟨o', operand', meaning⟩ := exec_sbc i sbc
    cases operand.symm.trans operand'
    obtain ⟨t', next, -, -, overflow, -⟩ := addSub_next aluSbc o s
    cases ((meaning s).trans next).symm.trans h
    rw [overflow]
    exact aluSbc_overflow_signed _ _ _

/-- Settles O23: SBC gives back ADC's `acc` exactly when the carry it reads is the complement of the one ADC read. -/
theorem sbcUndoesAdc : Obligations.SbcUndoesAdc := by
  intro m s t h
  have acc : t.acc = (aluAdc s.acc m (s.flag .C)).result := by
    cases h
    rfl
  have undone (u : State) (same : u.acc = t.acc) :
      ∃ w, exec (.sbcImm m) u = .next w ∧ (w.acc = s.acc ↔ u.flag .C = !s.flag .C) := by
    obtain ⟨w, next, result, -⟩ := addSub_next aluSbc (.imm m) u
    rw [same, acc] at result
    exact ⟨w, next, result ▸ aluSbc_aluAdc_result_iff _ _ _ _⟩
  refine ⟨?_, undone t rfl⟩
  obtain ⟨w, next, restored⟩ := undone (t.setStat (putFlag .C (!s.flag .C) t.stat)) rfl
  exact ⟨w, next, restored.mpr (getFlag_putFlag_same .C _ t.stat)⟩

/-- Settles O27: nine rotates by one place are the whole way round the nine bits. -/
theorem nineRotatesRestore : Obligations.NineRotatesRestore := by
  refine fun s => ⟨?rol, ?ror⟩
  case rol =>
    obtain ⟨t, next, turned⟩ := execTimes_rolAcc 9 s
    exact ⟨t, next, eq_of_turnedUp_nine turned⟩
  case ror =>
    obtain ⟨t, next, turned⟩ := execTimes_rorAcc 9 s
    obtain ⟨acc, carry⟩ := eq_of_turnedUp_nine turned
    exact ⟨t, next, acc.symm, carry.symm⟩

end Sys2Proof.Machine
end

section
/-! SUPPORT. Addresses as numbers, and the operand bytes of each format (`30_encoding.md` R81, R82, R101 to R114). -/

namespace Sys2Proof.Machine

/-- A zero-page sum wraps at 8 bits (R103). -/
theorem zext16_add_toNat (b i : Byte) : (zext16 (b + i)).toNat = (b.toNat + i.toNat) % 256 := by
  rw [zext16_toNat, BitVec.toNat_add]

/-- An indexed 16-bit sum wraps at 16 bits (R106). -/
theorem add_zext16_toNat (a : Addr) (i : Byte) : (a + zext16 i).toNat = (a.toNat + i.toNat) % 65536 := by
  rw [BitVec.toNat_add, zext16_toNat]

/-- A zero-page pointer's two bytes, both from zero page (`20_memory.md` R57). -/
theorem read16zp_toNat (s : State) (p : Byte) :
    (s.read16zp p).toNat = (Memory.read s.mem ((p.toNat + 1) % 256)).toNat * 256 + (Memory.read s.mem p.toNat).toNat := by
  rw [State.read16zp, word16_toNat, State.read, State.read, zext16_add_toNat, zext16_toNat]
  rfl

theorem operandBytes_length (i : Instr) : i.operandBytes.length + 1 = i.mode.length := encode_length i

/-- An instruction of length 1 has no operand byte (R81). -/
theorem operandBytes_of_length_one {i : Instr} (h : i.mode.length = 1) : i.operandBytes = [] :=
  List.length_eq_zero_iff.mp (Nat.succ.inj ((operandBytes_length i).trans h))

theorem operandBytes_of_length_two {i : Instr} (h : i.mode.length = 2) : ∃ b1, i.operandBytes = [b1] :=
  List.length_eq_one_iff.mp (Nat.succ.inj ((operandBytes_length i).trans h))

theorem operandBytes_of_length_three {i : Instr} (h : i.mode.length = 3) : ∃ b1 b2, i.operandBytes = [b1, b2] :=
  List.length_eq_two.mp (Nat.succ.inj ((operandBytes_length i).trans h))

/-- A two-byte instruction's operand is its format's operand for the byte after the opcode (R81). -/
theorem encode_operandOf_two {i : Instr} {m : Mode} (mode : i.mode = m) (two : m.length = 2) :
    ∃ b1, encode i = [i.opcode, b1] ∧ operandOf i = formatOperand m [b1] := by
  obtain ⟨b1, bytes⟩ := operandBytes_of_length_two ((congrArg Mode.length mode).trans two)
  exact ⟨b1, by rw [encode, bytes], by rw [operandOf, bytes, mode]⟩

/-- A three-byte instruction's operand is its format's operand for the two bytes after the opcode (R81). -/
theorem encode_operandOf_three {i : Instr} {m : Mode} (mode : i.mode = m) (three : m.length = 3) :
    ∃ b1 b2, encode i = [i.opcode, b1, b2] ∧ operandOf i = formatOperand m [b1, b2] := by
  obtain ⟨b1, b2, bytes⟩ := operandBytes_of_length_three ((congrArg Mode.length mode).trans three)
  exact ⟨b1, b2, by rw [encode, bytes], by rw [operandOf, bytes, mode]⟩

/-- A format gives no operand for as many bytes as it has exactly when it is IMP, REL or IND (R112 to R114). -/
theorem formatOperand_eq_none_iff {m : Mode} {bs : List Byte} (h : bs.length + 1 = m.length) :
    formatOperand m bs = none ↔ m ∈ [Mode.IMP, .REL, .IND] := by
  match bs with
  | [] => cases m <;> simp [Mode.length, formatOperand] at h ⊢
  | [b1] => cases m <;> simp [Mode.length, formatOperand] at h ⊢
  | [b1, b2] => cases m <;> simp [Mode.length, formatOperand] at h ⊢
  | b1 :: b2 :: b3 :: rest => cases m <;> simp [Mode.length] at h

end Sys2Proof.Machine
end

section
/-! PROOFS. The obligations of `30_encoding.md` about operands and addresses. -/

namespace Sys2Proof.Machine

/-- Settles O49: zero-page sums are bytes, absolute sums are addresses. -/
theorem directAddressesWrap : Obligations.DirectAddressesWrap := by
  intro s b1 b2
  refine ⟨zext16_toNat b1, zext16_add_toNat b1 s.ix, zext16_add_toNat b1 s.iy, rfl, word16_toNat b2 b1, ?abx, ?aby⟩
  case abx => rw [MemOperand.ea, add_zext16_toNat, word16_toNat]
  case aby => rw [MemOperand.ea, add_zext16_toNat, word16_toNat]

/-- Settles O50: both modes read their pointer with `Read16zp`. -/
theorem pointerAddressesStayInZeroPage : Obligations.PointerAddressesStayInZeroPage := by
  intro s b1
  refine ⟨?izx, ?izy⟩
  case izx => rw [MemOperand.ea, read16zp_toNat, BitVec.toNat_add]
  case izy => rw [MemOperand.ea, add_zext16_toNat, read16zp_toNat]

/-- Settles O51: an instruction has as many operand bytes as its format's length leaves. -/
theorem operandsFollowFormats : Obligations.OperandsFollowFormats := by
  refine ⟨fun i mode => ?acc, fun i mode => encode_operandOf_two mode rfl, fun i mode => encode_operandOf_two mode rfl,
    fun i mode => encode_operandOf_two mode rfl, fun i mode => encode_operandOf_two mode rfl,
    fun i mode => encode_operandOf_two mode rfl, fun i mode => encode_operandOf_two mode rfl,
    fun i mode => encode_operandOf_three mode rfl, fun i mode => encode_operandOf_three mode rfl,
    fun i mode => encode_operandOf_three mode rfl, fun i => formatOperand_eq_none_iff (operandBytes_length i),
    fun i o => operandOf_length, fun s b1 q => ⟨rfl, rfl, rfl⟩⟩
  have bytes := operandBytes_of_length_one (congrArg Mode.length mode)
  exact ⟨by rw [encode, bytes], by rw [operandOf, bytes, mode]; rfl⟩

end Sys2Proof.Machine
end

section
/-! SUPPORT. Canonical memory, the bytes a `Load` stores, and the latch of a step (`20_memory.md` R50, R69,
`70_reset_and_hazards.md` R335). -/

namespace Sys2Proof.Machine

/-! ### Canonical memory -/

/-- A canonical memory lists nothing below where it starts. -/
theorem read_below_wfFrom {lo a : Nat} {m : Memory} (h : Memory.wfFrom lo m = true) (below : a < lo) :
    Memory.read m a = 0 := by
  induction m generalizing lo with
  | nil => rfl
  | cons c m ih =>
    obtain ⟨from', -, -, rest⟩ := Memory.wfFrom_cons.mp h
    rw [Memory.read, if_neg (by omega)]
    exact ih rest (by omega)

theorem read_cons_same (c : Host.Cell) (m : Memory) : Memory.read (c :: m) c.1 = c.2 := by
  rw [Memory.read, if_pos rfl]

/-- A canonical memory's first listed byte is not 0x00. -/
theorem read_cons_ne_zero {lo : Nat} {c : Host.Cell} {m : Memory} (h : Memory.wfFrom lo (c :: m) = true) :
    Memory.read (c :: m) c.1 ≠ 0 := by
  obtain ⟨-, -, listed, -⟩ := Memory.wfFrom_cons.mp h
  rwa [read_cons_same]

/-- A listed address is one the other memory lists from its own start on, where the two read alike. -/
theorem le_of_read_eq {lo lo' : Nat} {c : Host.Cell} {m n : Memory} (h : Memory.wfFrom lo (c :: m) = true)
    (h' : Memory.wfFrom lo' n = true) (same : Memory.read (c :: m) c.1 = Memory.read n c.1) : lo' ≤ c.1 := by
  by_contra below
  exact read_cons_ne_zero h (same.trans (read_below_wfFrom h' (Nat.lt_of_not_le below)))

theorem wfFrom_self {lo : Nat} {c : Host.Cell} {m : Memory} (h : Memory.wfFrom lo (c :: m) = true) :
    Memory.wfFrom c.1 (c :: m) = true := by
  obtain ⟨-, rest⟩ := Memory.wfFrom_cons.mp h
  exact Memory.wfFrom_cons.mpr ⟨Nat.le_refl _, rest⟩

/-- Canonical memories that read alike inside memory are the same list. -/
theorem eq_of_wfFrom_of_read_eq {lo : Nat} {m n : Memory} (hm : Memory.wfFrom lo m = true) (hn : Memory.wfFrom lo n = true)
    (same : ∀ a, a < Config.memSize → Memory.read m a = Memory.read n a) : m = n := by
  induction m generalizing lo n with
  | nil =>
    cases n with
    | nil => rfl
    | cons d n =>
      obtain ⟨-, inside, -⟩ := Memory.wfFrom_cons.mp hn
      exact absurd (same d.1 inside).symm (read_cons_ne_zero hn)
  | cons c m ih =>
    obtain ⟨-, inside, -, restM⟩ := Memory.wfFrom_cons.mp hm
    cases n with
    | nil => exact absurd (same c.1 inside) (read_cons_ne_zero hm)
    | cons d n =>
      obtain ⟨-, inside', -, restN⟩ := Memory.wfFrom_cons.mp hn
      have address : c.1 = d.1 := Nat.le_antisymm (le_of_read_eq hn (wfFrom_self hm) (same d.1 inside').symm)
        (le_of_read_eq hm (wfFrom_self hn) (same c.1 inside))
      have byte : c.2 = d.2 := by
        rw [← read_cons_same c m, ← read_cons_same d n, same c.1 inside, address]
      obtain rfl : c = d := Prod.ext address byte
      congr 1
      refine ih restM restN fun a ha => ?_
      by_cases first : a ≤ c.1
      · rw [read_below_wfFrom restM (Nat.lt_succ_of_le first), read_below_wfFrom restN (Nat.lt_succ_of_le first)]
      · have other : c.1 ≠ a := fun e => first (Nat.le_of_eq e.symm)
        have := same a ha
        rwa [Memory.read, Memory.read, if_neg other, if_neg other] at this

/-! ### Storing bytes one after the other -/

/-- Storing bytes changes no field but memory. -/
theorem storeBytes_frame (bs : List Byte) (a : Nat) (s : State) :
    s.storeBytes bs a = { s with mem := (s.storeBytes bs a).mem } := by
  induction bs generalizing a s with
  | nil => rfl
  | cons b bs ih =>
    rw [State.storeBytes, ih]
    split <;> rfl

/-- The head byte stored, where it lies inside memory. -/
theorem storeBytes_cons {b : Byte} {a : Nat} (inside : a < Config.memSize) (bs : List Byte) (s : State) :
    s.storeBytes (b :: bs) a = (s.setMem (Memory.write s.mem a b)).storeBytes bs (a + 1) := by
  rw [State.storeBytes, if_pos inside]

theorem storeBytes_read_outside {bs : List Byte} {a b : Nat} (fits : a + bs.length ≤ Config.memSize)
    (outside : b < a ∨ a + bs.length ≤ b) (s : State) :
    Memory.read (s.storeBytes bs a).mem b = Memory.read s.mem b := by
  induction bs generalizing a s with
  | nil => rfl
  | cons c bs ih =>
    rw [List.length_cons] at fits outside
    rw [storeBytes_cons (by omega), ih (by omega) (by omega), setMem_mem, Memory.read_write_other _ _ (by omega)]

theorem storeBytes_read_inside {bs : List Byte} {a : Nat} (fits : a + bs.length ≤ Config.memSize) (s : State) (k : Nat)
    (hk : k < bs.length) : Memory.read (s.storeBytes bs a).mem (a + k) = bs[k] := by
  induction bs generalizing a s k with
  | nil => cases hk
  | cons c bs ih =>
    rw [List.length_cons] at fits hk
    rw [storeBytes_cons (by omega)]
    cases k with
    | zero => rw [storeBytes_read_outside (by omega) (.inl (by omega)), setMem_mem, Nat.add_zero, Memory.read_write_same]; rfl
    | succ k =>
      rw [← Nat.add_assoc, Nat.add_right_comm]
      exact ih (by omega) _ k (by omega)

theorem load_of_fits {bytes : List Byte} {origin : Addr} (fits : origin.toNat + bytes.length ≤ Config.memSize) (s : State) :
    s.load bytes origin = .ok (s.storeBytes bytes origin.toNat) := by
  rw [State.load, loadFits, if_pos (decide_eq_true fits)]

theorem load_of_past {bytes : List Byte} {origin : Addr} (past : Config.memSize < origin.toNat + bytes.length) (s : State) :
    s.load bytes origin = .error (.memoryBounds (origin.toNat + bytes.length)) := by
  rw [State.load, loadFits, if_neg fun fits => Nat.not_le.mpr past (of_decide_eq_true fits)]

/-! ### The latch of a step -/

/-- A step that answers a next state has latched the byte at `pc` (R121). -/
theorem step_next_ir {s t : State} (h : step s = .next t) : t.ir = s.read s.pc := by
  obtain ⟨-, i, -, next⟩ := step_next h
  exact (exec_frame next).ir

/-- Whatever a step of a running machine ends in, `ir` holds the byte at `pc` (R304). -/
theorem afterStep_ir {s : State} (running : s.fault = none) : s.afterStep.ir = s.read s.pc := by
  unfold State.afterStep
  rw [running]
  cases h : step s with
  | next t => exact step_next_ir h
  | fault f => rfl
  | refused r => exact absurd h (step_ne_refused s r)

end Sys2Proof.Machine
end

section
/-! PROOFS. The obligations of `20_memory.md` and of the host's operations (`70_reset_and_hazards.md` section 2). -/

namespace Sys2Proof.Machine

/-- Settles O52: two canonical lists that read alike have the same first cell, and so on down. -/
theorem canonicalMemoriesThatReadAlikeAreEqual : Obligations.CanonicalMemoriesThatReadAlikeAreEqual := by
  intro m n hm hn same
  refine eq_of_wfFrom_of_read_eq hm hn fun a ha => ?_
  have address : (BitVec.ofNat 16 a).toNat = a := Nat.mod_eq_of_lt ha
  exact address ▸ same (BitVec.ofNat 16 a)

/-- Settles O53: a step latches the byte at `pc`, and a store left its byte there. -/
theorem nextFetchSeesTheStore : Obligations.NextFetchSeesTheStore := by
  refine ⟨fun i r q s t stores operand h ea running => ?_, fun s t => step_next_ir⟩
  obtain ⟨q', operand', meaning⟩ := exec_store i stores
  cases operand.symm.trans operand'
  obtain ⟨t', next, stored, -⟩ := storeWith_next r q s
  cases (meaning.trans next).symm.trans h
  rw [afterStep_ir running, ← ea, stored]

/-- Settles O54: `Load` stores all the bytes where they fit, and errs without a store where they do not. -/
theorem loadWritesAllOrNothing : Obligations.LoadWritesAllOrNothing := by
  intro bytes origin s
  split
  · next past => simp only [perform, load_of_past past]
  · next fits =>
    have fits := Nat.le_of_not_lt fits
    refine ⟨s.storeBytes bytes origin.toNat, ?_, storeBytes_frame bytes origin.toNat s,
      storeBytes_read_inside fits s, fun a outside => storeBytes_read_outside fits outside s,
      storeBytes_wf bytes origin.toNat s⟩
    simp only [perform, load_of_fits fits]

/-- `Load` records no fault, whether it succeeds or not (R305). -/
theorem perform_load_fault (bytes : List Byte) (origin : Addr) (s : State) :
    (perform (.load bytes origin) s).1.fault = s.fault := by
  obtain past | fits := Nat.lt_or_ge Config.memSize (origin.toNat + bytes.length)
  · simp only [perform, load_of_past past]
  · simp only [perform, load_of_fits fits]
    rw [storeBytes_frame]

/-- Settles O9: no operation but `Reset` writes the record. -/
theorem faultIsSticky : Obligations.FaultIsSticky := by
  refine ⟨fun s f faulted => ⟨?step, ?perform, rfl, fun _ => faulted, fun bytes origin => ?load, rfl⟩,
    fun s bytes origin => perform_load_fault bytes origin s⟩
  case step => simp only [step, faulted]
  case perform => simp only [perform, State.afterStep, faulted]
  case load => exact (perform_load_fault bytes origin s).trans faulted

/-- Settles O12: the reset state, field by field. -/
theorem resetValues : Obligations.ResetValues :=
  fun s => ⟨rfl, rfl, rfl, rfl, rfl, rfl, rfl, rfl, rfl, fun _ => rfl,
    (by decide : State.reset.read16 0xFFFC = 0x0000)⟩

/-- Settles O55: `pc` is the word that has just been stored at the reset vector. -/
theorem setEntryWritesVectorAndPc : Obligations.SetEntryWritesVectorAndPc := by
  intro addr s
  have apart : (0xFFFC : Addr) ≠ 0xFFFD := by decide
  have low : (s.setEntry addr).read 0xFFFC = lowByte addr :=
    (write_read_other _ _ apart).trans (write_read_same s _ _)
  have high : (s.setEntry addr).read 0xFFFD = highByte addr := write_read_same _ _ _
  refine ⟨s.setEntry addr, rfl, ?pc, ?low, ?high, ?others, rfl⟩
  case pc => exact (congrArg₂ word16 high low).trans (word16_high_low addr)
  case low => rw [low, lowByte_toNat]
  case high => rw [high, highByte_toNat]
  case others =>
    intro a ha
    simp only [List.mem_cons, List.not_mem_nil, or_false, not_or] at ha
    obtain ⟨notLow, notHigh⟩ := ha
    exact (write_read_other _ _ notHigh).trans (write_read_other s _ notLow)

/-- Settles O56: the dump lists the bytes of memory by address. -/
theorem dumpShowsTheWholeState : Obligations.DumpShowsTheWholeState := by
  refine fun s => ⟨s.dump, rfl, rfl, rfl, rfl, rfl, rfl, rfl, rfl, ?length, fun a => ?bytes⟩
  case length => rw [State.dump, List.length_map, List.length_range]; rfl
  case bytes => rw [State.dump, List.getElem?_map, List.getElem?_range (addr_lt_memSize a)]; rfl

end Sys2Proof.Machine
end

section
/-! SUPPORT. The end of a run, one step at a time (`70_reset_and_hazards.md` R343). -/

namespace Sys2Proof.Machine

/-! ### Steps of a running machine -/

theorem step_next_fault {s t : State} (h : step s = .next t) : t.fault = none := by
  obtain ⟨running, i, -, next⟩ := step_next h
  exact (exec_frame next).fault.trans running

theorem run_zero_iff {s t : State} : Sys2Proof.core.run 0 s = .next t ↔ s = t :=
  ⟨Host.Outcome.next.inj, congrArg _⟩

theorem run_fault {j : Nat} {s t : State} (running : s.fault = none) (h : Sys2Proof.core.run j s = .next t) :
    t.fault = none := by
  induction j generalizing s with
  | zero =>
    cases run_zero_iff.mp h
    exact running
  | succ j ih =>
    obtain ⟨u, first, rest⟩ := (run_succ j s t).mp h
    exact ih (step_next_fault first) rest

/-- A run that answers a next state has answered one after every smaller number of steps. -/
theorem run_of_le {i j : Nat} (le : i ≤ j) {s t : State} (h : Sys2Proof.core.run j s = .next t) :
    ∃ u, Sys2Proof.core.run i s = .next u := by
  induction i generalizing j s with
  | zero => exact ⟨s, run_zero s⟩
  | succ i ih =>
    obtain ⟨j, rfl⟩ : ∃ j', j = j' + 1 := ⟨j - 1, by omega⟩
    obtain ⟨u, first, rest⟩ := (run_succ j s t).mp h
    obtain ⟨v, run⟩ := ih (Nat.le_of_succ_le_succ le) rest
    exact ⟨v, (run_succ i s v).mpr ⟨u, first, run⟩⟩

/-- The ways a running machine's run goes on: the policy holds; or it does not and a step answers; or a step faults. -/
theorem runUnder_cases (halt : State → Nat → Bool) (n : Nat) {s : State} (running : s.fault = none) :
    (halt s n = true ∧ ∀ k, runUnder halt k n s = .halted s) ∨
    halt s n = false ∧ runUnder halt 0 n s = .running s ∧
      ((∃ u, step s = .next u ∧ u.fault = none ∧ ∀ k, runUnder halt (k + 1) n s = runUnder halt k (n + 1) u) ∨
        ∃ f, step s = .fault f ∧ ∀ k, runUnder halt (k + 1) n s = .faulted s.afterStep) := by
  cases policy : halt s n with
  | true => exact .inl ⟨rfl, fun k => runUnder_of_halt halt k n running policy⟩
  | false =>
    refine .inr ⟨rfl, runUnder_zero_running halt n running policy, ?_⟩
    cases h : step s with
    | next u =>
      have after : s.afterStep = u := by simp only [State.afterStep, running, h]
      exact .inl ⟨u, rfl, step_next_fault h, fun k => after ▸ runUnder_succ halt k n running policy⟩
    | fault f =>
      have recorded : s.afterStep.fault ≠ none := by simp [afterStep_fault running h]
      exact .inr ⟨f, rfl, fun k => (runUnder_succ halt k n running policy).trans (runUnder_of_fault halt k _ recorded)⟩
    | refused r => exact absurd h (step_ne_refused s r)

theorem goesOnFor_succ_of_step {halt : State → Nat → Bool} {n : Nat} {s u : State} (policy : halt s n = false)
    (first : step s = .next u) (j : Nat) : goesOnFor halt (j + 1) n s ↔ goesOnFor halt j (n + 1) u := by
  rw [goesOnFor_succ]
  constructor
  · rintro ⟨-, rfl | ⟨v, first', rest⟩⟩
    · exact goesOnFor_zero halt (n + 1) u
    · cases first.symm.trans first'
      exact rest
  · exact fun rest => ⟨policy, .inr ⟨u, first, rest⟩⟩

theorem run_succ_of_step {s u : State} (first : step s = .next u) (j : Nat) (t : State) :
    Sys2Proof.core.run (j + 1) s = .next t ↔ Sys2Proof.core.run j u = .next t := by
  rw [run_succ]
  constructor
  · rintro ⟨v, first', rest⟩
    cases first.symm.trans first'
    exact rest
  · exact fun rest => ⟨u, first, rest⟩

/-- After a fault there is no run of one step or more. -/
theorem run_succ_of_fault {s : State} {f : Fault} (h : step s = .fault f) (j : Nat) (t : State) :
    Sys2Proof.core.run (j + 1) s ≠ .next t := by
  intro run
  obtain ⟨u, first, -⟩ := (run_succ j s t).mp run
  cases h.symm.trans first

/-! ### Halted, faulted, running -/

/-- `t` is the first state of the run from `s`, at most `k` steps on, for which the policy holds (R343). -/
def haltsIn (halt : State → Nat → Bool) (k n : Nat) (s t : State) : Prop :=
  ∃ j, j ≤ k ∧ Sys2Proof.core.run j s = .next t ∧ halt t (n + j) = true ∧ goesOnFor halt j n s

/-- `t` is what the first faulting step leaves, fewer than `k` steps on and before the policy holds (R343). -/
def faultsIn (halt : State → Nat → Bool) (k n : Nat) (s t : State) : Prop :=
  ∃ j u f, j < k ∧ Sys2Proof.core.run j s = .next u ∧ step u = .fault f ∧ t = u.afterStep ∧ goesOnFor halt (j + 1) n s

theorem not_goesOnFor_succ {halt : State → Nat → Bool} {n : Nat} {s : State} (policy : halt s n = true) (j : Nat) :
    ¬ goesOnFor halt (j + 1) n s := by
  intro h
  cases policy.symm.trans ((goesOnFor_succ halt j n s).mp h).1

theorem haltsIn_of_policy {halt : State → Nat → Bool} {n : Nat} {s : State} (policy : halt s n = true) (k : Nat) (t : State) :
    haltsIn halt k n s t ↔ t = s := by
  constructor
  · rintro ⟨j, -, run, -, before⟩
    cases j with
    | zero =>
      cases run_zero_iff.mp run
      rfl
    | succ j => exact absurd before (not_goesOnFor_succ policy j)
  · rintro rfl
    exact ⟨0, Nat.zero_le k, run_zero t, policy, goesOnFor_zero halt n t⟩

theorem haltsIn_succ_of_step {halt : State → Nat → Bool} {n : Nat} {s u : State} (policy : halt s n = false)
    (first : step s = .next u) (k : Nat) (t : State) : haltsIn halt (k + 1) n s t ↔ haltsIn halt k (n + 1) u t := by
  constructor
  · rintro ⟨j, le, run, holds, before⟩
    cases j with
    | zero =>
      cases run_zero_iff.mp run
      cases policy.symm.trans holds
    | succ j =>
      exact ⟨j, Nat.le_of_succ_le_succ le, (run_succ_of_step first j t).mp run, by rwa [Nat.succ_add_eq_add_succ],
        (goesOnFor_succ_of_step policy first j).mp before⟩
  · rintro ⟨j, le, run, holds, before⟩
    exact ⟨j + 1, Nat.succ_le_succ le, (run_succ_of_step first j t).mpr run, by rwa [← Nat.succ_add_eq_add_succ],
      (goesOnFor_succ_of_step policy first j).mpr before⟩

/-- A run that cannot take one step halts only where it starts. -/
theorem not_haltsIn_of_policy_false {halt : State → Nat → Bool} {n : Nat} {s : State} (policy : halt s n = false) {k : Nat}
    {t : State} (stuck : ∀ j, j < k → Sys2Proof.core.run (j + 1) s ≠ .next t) : ¬ haltsIn halt k n s t := by
  rintro ⟨j, le, run, holds, -⟩
  cases j with
  | zero =>
    cases run_zero_iff.mp run
    cases policy.symm.trans holds
  | succ j => exact stuck j le run

theorem not_faultsIn_of_policy {halt : State → Nat → Bool} {n : Nat} {s : State} (policy : halt s n = true) (k : Nat)
    (t : State) : ¬ faultsIn halt k n s t := by
  rintro ⟨j, u, f, -, -, -, -, before⟩
  exact not_goesOnFor_succ policy j before

theorem faultsIn_succ_of_step {halt : State → Nat → Bool} {n : Nat} {s u : State} (policy : halt s n = false)
    (first : step s = .next u) (k : Nat) (t : State) : faultsIn halt (k + 1) n s t ↔ faultsIn halt k (n + 1) u t := by
  constructor
  · rintro ⟨j, v, f, lt, run, raised, left, before⟩
    cases j with
    | zero =>
      cases run_zero_iff.mp run
      cases first.symm.trans raised
    | succ j =>
      exact ⟨j, v, f, Nat.lt_of_succ_lt_succ lt, (run_succ_of_step first j v).mp run, raised, left,
        (goesOnFor_succ_of_step policy first (j + 1)).mp before⟩
  · rintro ⟨j, v, f, lt, run, raised, left, before⟩
    exact ⟨j + 1, v, f, Nat.succ_lt_succ lt, (run_succ_of_step first j v).mpr run, raised, left,
      (goesOnFor_succ_of_step policy first (j + 1)).mpr before⟩

theorem faultsIn_succ_of_fault {halt : State → Nat → Bool} {n : Nat} {s : State} (policy : halt s n = false) {f : Fault}
    (raised : step s = .fault f) (k : Nat) (t : State) : faultsIn halt (k + 1) n s t ↔ t = s.afterStep := by
  constructor
  · rintro ⟨j, u, g, -, run, -, left, -⟩
    cases j with
    | zero =>
      cases run_zero_iff.mp run
      exact left
    | succ j => exact absurd run (run_succ_of_fault raised j u)
  · rintro rfl
    exact ⟨0, s, f, Nat.succ_pos k, run_zero s, raised, rfl, (goesOnFor_succ halt 0 n s).mpr ⟨policy, .inl rfl⟩⟩

/-! ### The three ends -/

theorem runUnder_eq_halted_iff (halt : State → Nat → Bool) (k n : Nat) {s : State} (running : s.fault = none) (t : State) :
    runUnder halt k n s = .halted t ↔ haltsIn halt k n s t := by
  induction k generalizing n s with
  | zero =>
    obtain ⟨policy, run⟩ | ⟨policy, run, -⟩ := runUnder_cases halt n running
    · rw [run, haltsIn_of_policy policy, RunEnd.halted.injEq, eq_comm]
    · exact iff_of_false (by simp [run]) (not_haltsIn_of_policy_false policy nofun)
  | succ k ih =>
    obtain ⟨policy, run⟩ | ⟨policy, -, ⟨u, first, running', run⟩ | ⟨f, raised, run⟩⟩ := runUnder_cases halt n running
    · rw [run, haltsIn_of_policy policy, RunEnd.halted.injEq, eq_comm]
    · rw [run, ih (n + 1) running', haltsIn_succ_of_step policy first]
    · exact iff_of_false (by simp [run]) (not_haltsIn_of_policy_false policy fun j _ => run_succ_of_fault raised j t)

theorem runUnder_eq_faulted_iff (halt : State → Nat → Bool) (k n : Nat) {s : State} (running : s.fault = none) (t : State) :
    runUnder halt k n s = .faulted t ↔ faultsIn halt k n s t := by
  induction k generalizing n s with
  | zero =>
    have none : ¬ faultsIn halt 0 n s t := fun ⟨_, _, _, lt, _⟩ => Nat.not_lt_zero _ lt
    obtain ⟨-, run⟩ | ⟨-, run, -⟩ := runUnder_cases halt n running
    · exact iff_of_false (by simp [run]) none
    · exact iff_of_false (by simp [run]) none
  | succ k ih =>
    obtain ⟨policy, run⟩ | ⟨policy, -, ⟨u, first, running', run⟩ | ⟨f, raised, run⟩⟩ := runUnder_cases halt n running
    · exact iff_of_false (by simp [run]) (not_faultsIn_of_policy policy (k + 1) t)
    · rw [run, ih (n + 1) running', faultsIn_succ_of_step policy first]
    · rw [run, faultsIn_succ_of_fault policy raised, RunEnd.faulted.injEq, eq_comm]

theorem runUnder_eq_running_iff (halt : State → Nat → Bool) (k n : Nat) {s : State} (running : s.fault = none) (t : State) :
    runUnder halt k n s = .running t ↔ Sys2Proof.core.run k s = .next t ∧ goesOnFor halt (k + 1) n s := by
  induction k generalizing n s with
  | zero =>
    obtain ⟨policy, run⟩ | ⟨policy, run, -⟩ := runUnder_cases halt n running
    · exact iff_of_false (by simp [run]) fun h => not_goesOnFor_succ policy 0 h.2
    · have goesOn : goesOnFor halt 1 n s := (goesOnFor_succ halt 0 n s).mpr ⟨policy, .inl rfl⟩
      rw [run, RunEnd.running.injEq, and_iff_left goesOn, run_zero_iff]
  | succ k ih =>
    obtain ⟨policy, run⟩ | ⟨policy, -, ⟨u, first, running', run⟩ | ⟨f, raised, run⟩⟩ := runUnder_cases halt n running
    · exact iff_of_false (by simp [run]) fun h => not_goesOnFor_succ policy (k + 1) h.2
    · rw [run, ih (n + 1) running', run_succ_of_step first, goesOnFor_succ_of_step policy first]
    · exact iff_of_false (by simp [run]) fun h => run_succ_of_fault raised k t h.1

theorem haltsIn_mono {halt : State → Nat → Bool} {k n : Nat} {s t : State} (h : haltsIn halt k n s t) (j : Nat) :
    haltsIn halt (k + j) n s t := by
  obtain ⟨i, le, rest⟩ := h
  exact ⟨i, Nat.le_add_right_of_le le, rest⟩

theorem faultsIn_mono {halt : State → Nat → Bool} {k n : Nat} {s t : State} (h : faultsIn halt k n s t) (j : Nat) :
    faultsIn halt (k + j) n s t := by
  obtain ⟨i, u, f, lt, rest⟩ := h
  exact ⟨i, u, f, Nat.lt_add_right j lt, rest⟩

theorem haltsIn_fault {halt : State → Nat → Bool} {k n : Nat} {s t : State} (running : s.fault = none)
    (h : haltsIn halt k n s t) : t.fault = none := by
  obtain ⟨j, -, run, -⟩ := h
  exact run_fault running run

theorem faultsIn_fault {halt : State → Nat → Bool} {k n : Nat} {s t : State} (running : s.fault = none)
    (h : faultsIn halt k n s t) : t.fault ≠ none := by
  obtain ⟨j, u, f, -, run, raised, rfl, -⟩ := h
  simp [afterStep_fault (run_fault running run) raised]

/-- Under the policy "iteration count" a run goes on until the count (R343). -/
theorem haltsIn_haltAfter_iff (N : Nat) (s t : State) :
    haltsIn (haltAfter N) N 0 s t ↔ Sys2Proof.core.run N s = .next t := by
  constructor
  · rintro ⟨j, -, run, count, -⟩
    rw [haltAfter, Nat.zero_add, beq_iff_eq] at count
    exact count ▸ run
  · intro run
    refine ⟨N, Nat.le_refl N, run, by simp [haltAfter], fun i lt => ?_⟩
    obtain ⟨u, reached⟩ := run_of_le (Nat.le_of_lt lt) run
    exact ⟨u, reached, by simp [haltAfter, Nat.ne_of_lt lt]⟩

end Sys2Proof.Machine
end

section
/-! PROOFS. The obligation about the end of a run (`70_reset_and_hazards.md` R343). -/

namespace Sys2Proof.Machine

/-- Settles O57: the three ends of a running machine's run, and a recorded fault before them. -/
theorem runEndIsDetermined : Obligations.RunEndIsDetermined := by
  refine ⟨fun halt k n s t => ?halted, fun halt k n s t => ?faulted, fun halt k n s t => ?running,
    fun N s t running => (runUnder_eq_halted_iff _ N 0 running t).trans (haltsIn_haltAfter_iff N s t),
    fun halt k j n s t => ?longer⟩
  case halted =>
    by_cases running : s.fault = none
    · rw [runUnder_eq_halted_iff halt k n running]
      exact (and_iff_right running).symm
    · rw [runUnder_of_fault halt k n running]
      exact iff_of_false nofun fun h => running h.1
  case faulted =>
    by_cases running : s.fault = none
    · rw [runUnder_eq_faulted_iff halt k n running]
      exact ⟨fun h => .inr ⟨running, h⟩, fun h => h.elim (fun h => absurd running h.1) (·.2)⟩
    · rw [runUnder_of_fault halt k n running, RunEnd.faulted.injEq]
      exact ⟨fun h => .inl ⟨running, h.symm⟩, fun h => h.elim (·.2.symm) fun h => absurd h.1 running⟩
  case running =>
    by_cases running : s.fault = none
    · rw [runUnder_eq_running_iff halt k n running]
      exact (and_iff_right running).symm
    · rw [runUnder_of_fault halt k n running]
      exact iff_of_false nofun fun h => running h.1
  case longer =>
    by_cases running : s.fault = none
    · simp only [runUnder_eq_halted_iff _ _ _ running, runUnder_eq_faulted_iff _ _ _ running]
      exact ⟨fun h => ⟨haltsIn_fault running h, haltsIn_mono h j⟩, fun h => ⟨faultsIn_fault running h, faultsIn_mono h j⟩⟩
    · simp only [runUnder_of_fault _ _ _ running, RunEnd.faulted.injEq]
      exact ⟨nofun, fun h => ⟨h ▸ running, h⟩⟩

end Sys2Proof.Machine
end

section
/-! SUPPORT. The other value of each parameter (`00_scope.md` R12). -/

namespace Sys2Proof.Machine

/-- The pointer's own page with another low byte is the word of the two (`30_encoding.md` R108). -/
theorem page_or_zext16 (a : Addr) (lo : Byte) : (a &&& 0xFF00) ||| zext16 lo = word16 (highByte a) lo := by
  have := a.isLt
  have mask : (0xFF00 : Addr) = BitVec.allOnes 16 <<< 8 := rfl
  have page : (a &&& 0xFF00).toNat = (highByte a).toNat <<< 8 := by
    rw [mask, ← BitVec.shiftLeft_ushiftRight, highByte_toNat, BitVec.toNat_shiftLeft, BitVec.toNat_ushiftRight,
      Nat.shiftLeft_eq, Nat.shiftLeft_eq, Nat.shiftRight_eq_div_pow]
    omega
  apply BitVec.eq_of_toNat_eq
  rw [BitVec.toNat_or, page, zext16_toNat, ← Nat.shiftLeft_add_eq_or_of_lt lo.isLt, Nat.shiftLeft_eq, word16_toNat]

theorem indirectTarget_pageWrap {p : Params} (wrap : p.jmpIndirectPageWrapBug = true) (a : Addr) (s : State) :
    State.indirectTarget p a s = .ok (word16 (s.read (word16 (highByte a) (lowByte a + 1))) (s.read a)) := by
  rw [State.indirectTarget, if_pos wrap, page_or_zext16]

/-- BRK's new `stat`: B set, and I where the parameter says so (`45_system.md` R240). -/
theorem trapEntry_flag_I (p : Params) (s : State) : (State.trapEntry p s).flag .I = (p.brkSetsI || s.flag .I) := by
  rw [State.trapEntry, setPc_flag]
  split
  · next sets => rw [setStat_flag, getFlag_putFlag_same, sets, Bool.true_or]
  · next leaves =>
    rw [Bool.eq_false_of_not_eq_true leaves, Bool.false_or]
    exact getFlag_putFlag_other (by decide) true s.stat

theorem getFlag_statPulled_partial {p : Params} (part : p.pullStatusWholeByte = false) (v st : Byte) (f : Flag) :
    getFlag f (statPulled p v st) = if f = .B ∨ f = .U then getFlag f st else getFlag f v := by
  rw [statPulled, part]
  cases f <;> simp [getFlag, flagIndex]

end Sys2Proof.Machine
end

section
/-! PROOFS. The obligation about the parameters (`00_scope.md` R12). -/

namespace Sys2Proof.Machine

/-- Settles O58: the other branch of each parameter's test. -/
theorem otherReadingsOfTheParameters : Obligations.OtherReadingsOfTheParameters := by
  intro p s
  refine ⟨fun wrap a => ⟨_, indirectTarget_pageWrap wrap a s, ?target⟩, trapEntry_flag_I p s, fun leaves => ?pull,
    fun part v f => getFlag_statPulled_partial part v s.stat f⟩
  case target =>
    rw [word16_toNat, State.read, word16_toNat, highByte_toNat, BitVec.toNat_add, lowByte_toNat]
    have next : (a.toNat % 256 + 1) % 256 = (a.toNat + 1) % 256 := Nat.mod_add_mod _ _ _
    exact congrArg (fun k => (Memory.read s.mem (a.toNat / 256 * 256 + k)).toNat * 256 + _) next
  case pull =>
    rw [State.pullClearing, leaves]
    rfl

end Sys2Proof.Machine
end

section
/-! SUPPORT. Status bytes alike but for I and D, and what an instruction makes of them (`10_state.md` R33). -/

namespace Sys2Proof.Machine

/-- Two status bytes differ in no bit but I and D. -/
def alikeButID (x y : Byte) : Prop := ∀ f, f ∉ [Flag.I, .D] → getFlag f x = getFlag f y

theorem alikeButID_putFlag {x y : Byte} (alike : alikeButID x y) (g : Flag) (b : Bool) :
    alikeButID (putFlag g b x) (putFlag g b y) := by
  intro f hf
  rw [getFlag_putFlag, getFlag_putFlag, alike f hf]

theorem alikeButID_setNZ {x y : Byte} (alike : alikeButID x y) (v : Byte) : alikeButID (setNZ v x) (setNZ v y) :=
  alikeButID_putFlag (alikeButID_putFlag alike _ _) _ _

theorem alikeButID_statCZN {x y : Byte} (alike : alikeButID x y) (out : AluOut) :
    alikeButID (statCZN out x) (statCZN out y) :=
  alikeButID_setNZ (alikeButID_putFlag alike _ _) _

theorem alikeButID_statCVZN {x y : Byte} (alike : alikeButID x y) (out : AluOut) :
    alikeButID (statCVZN out x) (statCVZN out y) :=
  alikeButID_setNZ (alikeButID_putFlag (alikeButID_putFlag alike _ _) _ _) _

theorem alikeButID_statBit {x y : Byte} (alike : alikeButID x y) (a m : Byte) :
    alikeButID (statBit a m x) (statBit a m y) :=
  alikeButID_putFlag (alikeButID_putFlag (alikeButID_putFlag alike _ _) _ _) _ _

/-- No effective address depends on `stat`. -/
theorem ea_setStat (q : MemOperand) (s : State) (y : Byte) : q.ea (s.setStat y) = q.ea s := by
  cases q <;> rfl

theorem value_setStat (o : Operand) (s : State) (y : Byte) : o.value (s.setStat y) = o.value s := by
  cases o with
  | acc => rfl
  | imm => rfl
  | mem q => rw [Operand.value, Operand.value, ea_setStat, setStat_read]

/-- An instruction that pushes no status byte does the same from a status alike but for I and D: `stat` is alike, all else
is equal. -/
theorem exec_setStat {i : Instr} (quiet : i.mnemonic ∉ [Mnemonic.PHP, .BRK]) {s t : State} {y : Byte}
    (alike : alikeButID y s.stat) (h : exec i s = .next t) :
    ∃ z, exec i (s.setStat y) = .next (t.setStat z) ∧ alikeButID z t.stat := by
  have carry : (s.setStat y).flag .C = s.flag .C := alike .C (by decide)
  cases shape i with
  | arith alu o eq =>
    cases (eq s).symm.trans h
    refine ⟨_, ?_, alikeButID_statCVZN alike _⟩
    rw [eq, addSub, value_setStat, carry]
    rfl
  | compare rd o eq mn src =>
    cases (eq s).symm.trans h
    refine ⟨_, ?_, alikeButID_statCZN alike _⟩
    rw [eq, compareWith, src, value_setStat]
    rfl
  | loadAcc o eq | loadIx o eq | loadIy o eq =>
    cases (eq s).symm.trans h
    refine ⟨_, ?_, alikeButID_setNZ alike _⟩
    rw [eq, loadWith, value_setStat]
    rfl
  | store rd q eq mn src =>
    cases (eq s).symm.trans h
    refine ⟨_, ?_, alike⟩
    rw [eq, storeWith, src, ea_setStat]
    rfl
  | logic op o eq =>
    cases (eq s).symm.trans h
    refine ⟨_, ?_, alikeButID_setNZ alike _⟩
    rw [eq, logicWith, value_setStat]
    rfl
  | bit o eq =>
    cases (eq s).symm.trans h
    refine ⟨_, ?_, alikeButID_statBit alike _ _⟩
    rw [eq, bitWith, value_setStat]
    rfl
  | shiftAcc op eq =>
    cases (eq s).symm.trans h
    refine ⟨_, ?_, alikeButID_statCZN alike _⟩
    rw [eq, shiftAcc, carry]
    rfl
  | shiftMem op q eq =>
    cases (eq s).symm.trans h
    refine ⟨_, ?_, alikeButID_statCZN alike _⟩
    rw [eq, shiftMem, carry, ea_setStat]
    rfl
  | bump op q eq =>
    cases (eq s).symm.trans h
    refine ⟨_, ?_, alikeButID_setNZ alike _⟩
    rw [eq, bumpMem, ea_setStat]
    rfl
  | toAcc rd eq mn src | toIx rd eq mn src | toIy rd eq mn src =>
    cases (eq s).symm.trans h
    refine ⟨_, ?_, alikeButID_setNZ alike _⟩
    rw [eq, src]
    rfl
  | flagWrite f b eq =>
    cases (eq s).symm.trans h
    refine ⟨_, ?_, alikeButID_putFlag alike f b⟩
    rw [eq]
    rfl
  | branch f want d eq mn =>
    have tested : (s.setStat y).flag f = s.flag f := by
      refine alike f ?_
      refine (?_ : ∀ p ∈ _, p.2 ∉ [Flag.I, .D]) (i.mnemonic, f) mn
      decide
    cases ((eq s).trans (branchOn_eq f want d s)).symm.trans h
    refine ⟨_, ?_, alike⟩
    rw [eq, branchOn_eq, tested]
    rfl
  | jmpInd a eq =>
    subst eq
    obtain ⟨below, rfl⟩ := execJmpInd_eq_next h
    exact ⟨_, execJmpInd_next a (s.setStat y) below, alike⟩
  | jmpAbs _ eq | jsr _ eq | rts eq | pha eq | txs eq | nop eq =>
    subst eq
    cases h
    exact ⟨_, rfl, alike⟩
  | pla eq =>
    subst eq
    cases h
    exact ⟨_, rfl, alikeButID_setNZ alike _⟩
  | plp eq =>
    subst eq
    cases h
    exact ⟨_, rfl, fun _ _ => rfl⟩
  | rti eq =>
    subst eq
    cases h
    exact ⟨_, rfl, fun _ _ => rfl⟩
  | php eq | brk eq =>
    subst eq
    exact absurd (by decide) quiet

/-- What R33 asks of `t'` beside `t`: equal but for I and D of `stat`, and of the status byte PHP and BRK push. -/
def sameButID (i : Instr) (t t' : State) : Prop :=
  t'.acc = t.acc ∧ t'.ix = t.ix ∧ t'.iy = t.iy ∧ t'.sp = t.sp ∧ t'.pc = t.pc ∧
    t'.ir = t.ir ∧ t'.decoded = t.decoded ∧ t'.fault = t.fault ∧ keepsFlags [.I, .D] t t' ∧
    (i.mnemonic ∉ [Mnemonic.PHP, .BRK] → keepsBytesExcept [] t t') ∧
    (∀ (a : Addr) (f : Flag), f ∉ [Flag.I, .D] → getFlag f (t'.read a) = getFlag f (t.read a))

theorem exec_php_sameButID {s : State} {y : Byte} (alike : alikeButID y s.stat) :
    ∃ t t', exec .php s = .next t ∧ exec .php (s.setStat y) = .next t' ∧ sameButID .php t t' := by
  refine ⟨_, _, rfl, rfl, rfl, rfl, rfl, rfl, rfl, rfl, rfl, rfl, alike, fun quiet => absurd (by decide) quiet, ?_⟩
  intro a f hf
  rw [advance_read, advance_read, push_read, push_read]
  show getFlag f (if a = stackAddr s.sp then _ else s.read a) = _
  split
  · exact alikeButID_putFlag alike .B true f hf
  · rfl

/-- BRK with its registers written out (`45_system.md` R240). -/
theorem exec_brk_frame (s : State) :
    exec .brk s = .next
      { s with
        sp := s.sp - 3
        pc := word16 (s.read 0xFFFF) (s.read 0xFFFE)
        stat := putFlag .B true s.stat
        mem := (State.trapEntry Config.params s).mem } := by
  rw [← trapEntry_pc]
  exact congrArg Host.Outcome.next (trapEntry_frame s)

/-- The byte BRK pushes last is its `stat`; the others do not depend on it. -/
theorem trapEntry_read_alike {s : State} {y : Byte} (alike : alikeButID y s.stat) (a : Addr) {f : Flag}
    (hf : f ∉ [Flag.I, .D]) :
    getFlag f (Memory.read (State.trapEntry Config.params (s.setStat y)).mem a.toNat) =
      getFlag f (Memory.read (State.trapEntry Config.params s).mem a.toNat) := by
  have read (u : State) : Memory.read (State.trapEntry Config.params u).mem a.toNat =
    (State.trapEntry Config.params u).read a := rfl
  rw [read, read, trapEntry_read, trapEntry_read, setStat_sp, setStat_pc, setStat_stat, setStat_read]
  split
  · exact alikeButID_putFlag alike .B true f hf
  · rfl

theorem exec_brk_sameButID {s : State} {y : Byte} (alike : alikeButID y s.stat) :
    ∃ t t', exec .brk s = .next t ∧ exec .brk (s.setStat y) = .next t' ∧ sameButID .brk t t' := by
  have marked := alikeButID_putFlag alike .B true
  refine ⟨_, _, exec_brk_frame s, exec_brk_frame (s.setStat y), rfl, rfl, rfl, rfl, rfl, rfl, rfl, rfl, marked,
    fun quiet => absurd (by decide) quiet, fun a f hf => trapEntry_read_alike alike a hf⟩

theorem exec_setStat_sameButID {i : Instr} {s t : State} {y : Byte} (alike : alikeButID y s.stat) (h : exec i s = .next t) :
    ∃ t', exec i (s.setStat y) = .next t' ∧ sameButID i t t' := by
  by_cases pushes : i.mnemonic ∈ [Mnemonic.PHP, .BRK]
  · simp only [List.mem_cons, List.not_mem_nil, or_false] at pushes
    rcases pushes with php | brk
    · match i, php with
      | .php, _ =>
        obtain ⟨_, t', next, next', same⟩ := exec_php_sameButID alike
        cases next.symm.trans h
        exact ⟨t', next', same⟩
    · match i, brk with
      | .brk, _ =>
        obtain ⟨_, t', next, next', same⟩ := exec_brk_sameButID alike
        cases next.symm.trans h
        exact ⟨t', next', same⟩
  · obtain ⟨z, next', still⟩ := exec_setStat pushes alike h
    exact ⟨_, next', rfl, rfl, rfl, rfl, rfl, rfl, rfl, rfl, still, fun _ _ _ => rfl, fun _ _ _ => rfl⟩

end Sys2Proof.Machine
end

section
/-! PROOFS. The obligation about I and D (`10_state.md` R33). -/

namespace Sys2Proof.Machine

/-- Settles O19: PHP and BRK push a status byte alike but for I and D; all others neither read nor store the two bits. -/
theorem decimalAndInterruptBitsAreInert : Obligations.DecimalAndInterruptBitsAreInert := by
  intro i s b d
  have alike : alikeButID (putFlag .D d (putFlag .I b s.stat)) s.stat := by
    intro f hf
    simp only [List.mem_cons, List.not_mem_nil, or_false, not_or] at hf
    obtain ⟨notI, notD⟩ := hf
    rw [getFlag_putFlag_other notD, getFlag_putFlag_other notI]
  generalize putFlag .D d (putFlag .I b s.stat) = y at alike ⊢
  split
  · next t h => exact exec_setStat_sameButID alike h
  · next f h =>
    obtain ⟨rfl, rfl⟩ := exec_fault h
    exact execJmpInd_top (s.setStat y)
  · next r h => exact exec_ne_refused i s r h

end Sys2Proof.Machine
end
